-- ==== Sys2Proof/Word.lean ====
section
/-!
DEFINITION. Word.lean: the bit widths the spec names (R7, R28).
-/

namespace Sys2Proof

/-- A byte: an 8-bit unsigned value, bit 0 the least significant (R7). -/
abbrev Byte := BitVec 8

/-- The identifier's type: an unsigned 32-bit value (R6 `ID_WIDTH`, R28). -/
abbrev Word := BitVec 32

/-- One hexadecimal digit's value, 0 to 15 (R91). -/
abbrev Nibble := BitVec 4

end Sys2Proof
end

