-- ==== Sys2Proof/Config.lean ====
section
/-!
DEFINITION. Config.lean: the implementation parameters of R6, the Poller's configuration (R131, R130), and the one
value the spec leaves open (R125, D16).
-/

namespace Sys2Proof

/-- `RAW_FRAME_LEN`, in bytes (R6, R60). -/
abbrev Config.rawFrameLen : Nat := 16

/-- `ID_OFFSET`: the identifier is bytes 0 to 3 (R6, R46). -/
abbrev Config.idOffset : Nat := 0

/-- `PAYLOAD_OFFSET`: the payload is bytes 8 to 15 (R6, R44, conflict C1). -/
abbrev Config.payloadOffset : Nat := 8

/-- `PAYLOAD_LEN`, in bytes (R6). -/
abbrev Config.payloadLen : Nat := 8

/-- `PAYLOAD_HEX_LEN`, in characters (R6, R92). -/
abbrev Config.payloadHexLen : Nat := 16

/-- The configuration a Poller is constructed with. `interfaceName` is opaque to the block and to the Poller.
`pollPeriodMs` is kept as an integer so that a value that is not positive can be written down and refused (log 8). -/
structure PollerConfig where
  /-- `interface_name`, which selects the Frame Source binding (R131). -/
  interfaceName : String
  /-- `poll_period_ms`, a positive integer (R131). -/
  pollPeriodMs : Int
  /-- `SURFACE_SINK_FAILURE` (R130). -/
  surfaceSinkFailure : Bool
  deriving DecidableEq, Repr

/-- The defaults: period 100 and no surfacing (R6). The spec gives `interface_name` no default:
the empty string is the model's DESIGN CHOICE (log 7). -/
def PollerConfig.default : PollerConfig :=
  { interfaceName := "", pollPeriodMs := 100, surfaceSinkFailure := false }

/-- Whether the Poller also appends a fatal error to `reports`: left open by R125 (D16), so a FREE VALUE, one draw per
fatal tick, indexed by the counter State keeps (log 9). Nothing can be proved of it. -/
opaque Config.fatalAlsoReported : Nat → Bool

end Sys2Proof
end

