-- ==== Sys2Proof/Syntax.lean ====
section
/-!
DEFINITION. Syntax.lean: CanFrame and DisplayString (R64, R66), the request record (R26), the program line (R73) and
the four instructions of the opcode table (R70).
-/

namespace Sys2Proof

/-- A payload: 8 independent byte lanes, `p0` being `payload[0]` (R28, R65). -/
structure Payload where
  p0 : Byte
  p1 : Byte
  p2 : Byte
  p3 : Byte
  p4 : Byte
  p5 : Byte
  p6 : Byte
  p7 : Byte
  deriving DecidableEq, Repr

/-- The lanes in order, lane 0 first. -/
def Payload.lanes (p : Payload) : List Byte :=
  [p.p0, p.p1, p.p2, p.p3, p.p4, p.p5, p.p6, p.p7]

/-- A CanFrame: any 32-bit identifier with any 8 payload bytes (R28, R64). It carries no DLC, flags or timestamp. -/
structure CanFrame where
  identifier : Word
  payload : Payload
  deriving DecidableEq, Repr

/-- A text as its ASCII bytes, one per character (R8, R67). -/
abbrev DisplayString := List Byte

/-- A request on the block's request channel (R26). A field the selected operation does not use is ignored. -/
structure Request where
  /-- The selector `op[1:0]` (R70). -/
  op : BitVec 2
  /-- A byte sequence of any length, its length part of the request (R72). -/
  raw : List Byte
  frame : CanFrame
  deriving DecidableEq, Repr

/-- The encoding of a program line: the selector, then the operand values as bytes (R73). -/
structure Line where
  op : BitVec 2
  operands : List Byte
  deriving DecidableEq, Repr

/-- Why the line reader turns a line away. -/
inductive LineRefusal where
  /-- A RENDER line whose operand bytes number `n`, not the 4 + 8 bytes of a CanFrame. Safe (log 4). -/
  | frameOperandLength (n : Nat)
  deriving DecidableEq, Repr

/-- The operations of the opcode table, one constructor per row, each with the operands R70 gives it. -/
inductive Instr where
  /-- DECODE, selector 00 (R80). -/
  | decode (raw : List Byte)
  /-- RENDER, selector 01 (R90). -/
  | render (frame : CanFrame)
  /-- DECODE_RENDER, selector 10 (R100). -/
  | decodeRender (raw : List Byte)
  /-- RESERVED, selector 11 (R71). -/
  | reserved
  deriving DecidableEq, Repr

end Sys2Proof
end

