-- ==== Sys2Proof/WellFormed.lean ====
section
/-!
DEFINITION. WellFormed.lean: what the spec calls legal, as checks: an instruction (R70, R71), a RawFrame (R60, R61), a
configuration (R131), and the DisplayString grammar (R66).
-/

namespace Sys2Proof

/-- An invoker may issue selectors 00, 01 and 10 (R117); 11 is reserved (R71, log 12). Their operands are unconstrained:
`raw` has any length (R72) and every CanFrame value is well formed (R28). -/
def Instr.wf : Instr → Bool
  | .decode _ => true
  | .render _ => true
  | .decodeRender _ => true
  | .reserved => false

/-- Length is the only legality condition of a RawFrame (R61). -/
def rawFrameWf (raw : List Byte) : Bool :=
  raw.length == Config.rawFrameLen

/-- `poll_period_ms` is a positive integer (R131). -/
def PollerConfig.wf (c : PollerConfig) : Bool :=
  decide (0 < c.pollPeriodMs)

/-- ABNF `hexdig`: `0`-`9` or `A`-`F`, uppercase only (R66, R67). -/
def isHexDigit (c : Byte) : Bool :=
  decide (0x30 ≤ c.toNat ∧ c.toNat ≤ 0x39) || decide (0x41 ≤ c.toNat ∧ c.toNat ≤ 0x46)

/-- ABNF `nz-hexdig` (R66). -/
def isNzHexDigit (c : Byte) : Bool :=
  isHexDigit c && c != 0x30

/-- ABNF `id-hex`: `"0"`, or a nonzero digit and at most seven more digits (R66). -/
def isIdHex : DisplayString → Bool
  | [] => false
  | c :: cs => (c == 0x30 && cs.isEmpty) || (isNzHexDigit c && cs.all isHexDigit && decide (cs.length ≤ 7))

/-- ABNF `payload-hex`: exactly 16 digits (R66). -/
def isPayloadHex (t : DisplayString) : Bool :=
  t.length == Config.payloadHexLen && t.all isHexDigit

/-- ABNF `display-string`: `id-hex "#" payload-hex`, split at the first `#` (R66, R96). -/
def isDisplayString (t : DisplayString) : Bool :=
  match t.span (· != 0x23) with
  | (_, []) => false
  | (ident, _ :: payload) => isIdHex ident && isPayloadHex payload

end Sys2Proof
end

