-- ==== Sys2Proof/Decode.lean ====
section
/-!
DEFINITION. Decode.lean: from a request record (R26) or a program line (R73) to an instruction, and the encoders back.
-/

namespace Sys2Proof

/-- The operation a request selects (R70), with the one operand that operation uses; the other fields are ignored
(R26). Total: the selector has four values and each is a row of the table. -/
def decode (r : Request) : Instr :=
  match r.op with
  | 0b00#2 => .decode r.raw
  | 0b01#2 => .render r.frame
  | 0b10#2 => .decodeRender r.raw
  | 0b11#2 => .reserved

/-- A CanFrame with every bit clear, which fills the `frame` field of a request that does not use it (R26). -/
def zeroFrame : CanFrame :=
  { identifier := 0, payload := ⟨0, 0, 0, 0, 0, 0, 0, 0⟩ }

/-- The request that selects an instruction (R70). Fields its operation does not use are left empty or zero (R26). -/
def encode (i : Instr) : Request :=
  match i with
  | .decode raw => { op := 0b00, raw := raw, frame := zeroFrame }
  | .render frame => { op := 0b01, raw := [], frame := frame }
  | .decodeRender raw => { op := 0b10, raw := raw, frame := zeroFrame }
  | .reserved => { op := 0b11, raw := [], frame := zeroFrame }

/-- The identifier of a RENDER line, its bytes in the order `id=0xHHHHHHHH` is written: most significant first.
The spec packs no frame (R64), so the order is a DESIGN CHOICE of the line form alone (log 4). -/
def lineIdentifier (h0 h1 h2 h3 : Byte) : Word :=
  ((h0 ++ h1) ++ (h2 ++ h3) : BitVec 32)

/-- The four bytes `lineIdentifier` reads back. -/
def lineIdentifierBytes (v : Word) : List Byte :=
  [v.extractLsb' 24 8, v.extractLsb' 16 8, v.extractLsb' 8 8, v.extractLsb' 0 8]

/-- The CanFrame of a RENDER line: 4 identifier bytes, then `p0` to `p7` (R73). Any other count is refused by name. -/
def lineFrame (operands : List Byte) : Except LineRefusal CanFrame :=
  match operands with
  | [h0, h1, h2, h3, p0, p1, p2, p3, p4, p5, p6, p7] =>
    .ok { identifier := lineIdentifier h0 h1 h2 h3, payload := ⟨p0, p1, p2, p3, p4, p5, p6, p7⟩ }
  | other => .error (.frameOperandLength other.length)

/-- The request a program line stands for (R73). The operand bytes of DECODE and DECODE_RENDER are `raw`, whatever
their number (R72); a reserved line is one whatever its operands (R71). -/
def lineRequest (l : Line) : Except LineRefusal Request :=
  match l.op with
  | 0b00#2 => .ok { op := l.op, raw := l.operands, frame := zeroFrame }
  | 0b01#2 =>
    match lineFrame l.operands with
    | .ok frame => .ok { op := l.op, raw := [], frame := frame }
    | .error e => .error e
  | 0b10#2 => .ok { op := l.op, raw := l.operands, frame := zeroFrame }
  | 0b11#2 => .ok { op := l.op, raw := [], frame := zeroFrame }

/-- The instruction a program line stands for, or the reason it is turned away. -/
def decodeLine (l : Line) : Except LineRefusal Instr :=
  match lineRequest l with
  | .ok r => .ok (decode r)
  | .error e => .error e

/-- The line of an instruction: its selector followed by its operand values as bytes (R73). -/
def encodeLine (i : Instr) : Line :=
  match i with
  | .decode raw => { op := 0b00, operands := raw }
  | .render frame => { op := 0b01, operands := lineIdentifierBytes frame.identifier ++ frame.payload.lanes }
  | .decodeRender raw => { op := 0b10, operands := raw }
  | .reserved => { op := 0b11, operands := [] }

/-- How many operand bytes a line built from an opcode-table word carries: a whole RawFrame, a whole CanFrame, or
none (log 5). -/
def tableOperandBytes (op : BitVec 2) : Nat :=
  match op with
  | 0b00#2 => 16
  | 0b01#2 => 12
  | 0b10#2 => 16
  | 0b11#2 => 0

/-- The line whose selector is bits 1:0 of the table's word (R70) and whose operand bytes are the bytes after the
first, every bit above `nbits` being 0. Bits 7:2 of the first byte belong to no field and are not looked at (log 5). -/
def tableLine (nbits w : Nat) : Option Line :=
  if nbits < 2 then none
  else
    let bits := w % 2 ^ nbits
    let op := BitVec.ofNat 2 bits
    some { op := op, operands := (List.range (tableOperandBytes op)).map fun k => BitVec.ofNat 8 (bits / 2 ^ (8 * (k + 1))) }

/-- The request of an opcode-table word (log 5). -/
def tableRequest (nbits w : Nat) : Option Request :=
  match tableLine nbits w with
  | none => none
  | some l =>
    match lineRequest l with
    | .ok r => some r
    | .error _ => none

/-- What the decoder reads from an instruction whose bits are `w`, numbered as the opcode table numbers them. -/
def decodeTableWord (nbits w : Nat) : Option Instr :=
  match tableRequest nbits w with
  | some r => some (decode r)
  | none => none

end Sys2Proof
end

