-- ==== Sys2Proof/Machine/State.lean ====
section
/-!
DEFINITION. Machine/State.lean: results and responses (R9, R26), the Poller's record (R30), the inputs that reach the
machine (R73, R118), State, and State after construction (R151).
-/

namespace Sys2Proof.Machine

/-- The one error of the block (R110, R112); `n` is the offending input length (R9). -/
inductive BlockError where
  | malformedFrame (n : Nat)
  deriving DecidableEq, Repr

/-- The status tag of a response (R22). Its code is `Status.code`. -/
inductive Status where
  | ok
  | malformedFrame
  deriving DecidableEq, Repr

/-- A response on the block's response channel (R26). A field R27 does not define for the operation is absent. -/
structure Response where
  status : Status
  /-- The offending `raw.len` of a MALFORMED_FRAME. -/
  errLen : Option Nat
  frameOut : Option CanFrame
  textOut : Option DisplayString
  deriving DecidableEq, Repr

/-- The Poller's states (R30, R120). -/
inductive PState where
  | idle
  | waiting
  | polling
  | stopped
  deriving DecidableEq, Repr

/-- The Poller's timer: held but not armed after construction (R151), armed by START (R121), released with the Frame
Source handle (R129). The table of R30 has no row for it. -/
inductive Timer where
  | unarmed
  | armed
  | released
  deriving DecidableEq, Repr

/-- Where a RECEIVE_ERROR came from (R111): the Frame Source, or the Sink under R130. -/
inductive ReceiveErrorInfo where
  | source
  | sink
  deriving DecidableEq, Repr

/-- An entry of `reports`: an error kind with its recorded info (R111, R124). Its code is `Report.code`. -/
inductive Report where
  | malformedFrame (n : Nat)
  | receiveError (info : ReceiveErrorInfo)
  | sourceUnavailable
  deriving DecidableEq, Repr

/-- What `fatal` can hold when present (R30). -/
inductive FatalError where
  | sourceUnavailable
  deriving DecidableEq, Repr

/-- What one `receive()` can return (R118). A Frame Source that keeps its contract returns 16 bytes; a breach of it is
admitted (D21). The fourth outcome, no return at all (R133), is an input that never comes. -/
inductive ReceiveOutcome where
  | bytes (raw : List Byte)
  | receiveError
  | sourceUnavailable
  deriving DecidableEq, Repr

/-- The events of the environment (R73, R120). -/
inductive Event where
  /-- The host's start (R121). -/
  | start
  /-- A timer fire (R122, R126, R127). -/
  | fire
  /-- The outstanding `receive()` returns; `sinkFails` is the Sink's draw for the hand-off this may lead to (R130). -/
  | receiveReturns (outcome : ReceiveOutcome) (sinkFails : Bool)
  /-- The host's shutdown request (R128). -/
  | shutdown
  deriving DecidableEq, Repr

/-- What can reach the machine from outside: a request to the block (R26), or an event of the environment. -/
inductive Input where
  | request (r : Request)
  | event (e : Event)
  deriving DecidableEq, Repr

/-- The Poller's record (R30), and its timer (R151). -/
structure Poller where
  pstate : PState
  shutdownPending : Bool
  /-- The DisplayStrings handed to the Sink, in order. -/
  emitted : List DisplayString
  /-- The errors reported, in order. -/
  reports : List Report
  fatal : Option FatalError
  /-- The Poller owns the Frame Source handle. -/
  sourceHeld : Bool
  timer : Timer
  deriving DecidableEq, Repr

/-- The whole machine. The block contributes nothing to it: it holds no state (R20 to R25, R29). -/
structure State where
  /-- The configuration taken at construction (R131, R151); no step writes it. -/
  config : PollerConfig
  poller : Poller
  /-- MODEL'S OWN: what is still to come from outside, oldest first (log 2). -/
  inputs : List Input
  /-- MODEL'S OWN: the responses given so far, oldest first; no operation reads it (log 3). -/
  responses : List Response
  /-- MODEL'S OWN: how many free choices were drawn (log 9). -/
  freeDraws : Nat
  deriving DecidableEq, Repr

/-- Faults of the machine: NONE. The spec has no trap, no fault and no undefined behaviour (R110, R114); its errors
are results, in Response and Report (log 1). -/
inductive Fault where
  deriving DecidableEq, Repr

/-- Why the machine gives a step, or a construction, no meaning. -/
inductive Refusal where
  /-- An instruction the model has not reached, by its mnemonic; raised by no arm of `exec`. Safe. -/
  | notModelled (mnemonic : String)
  /-- The reserved selector 11, which R71 says is refused, with no response; raised by `execReserved`. Safe. -/
  | reservedSelector
  /-- A construction whose `poll_period_ms` is not a positive integer, which R131 says is refused; raised by
  `State.construct`. Safe. -/
  | nonPositivePollPeriod (ms : Int)
  deriving DecidableEq, Repr

/-- The Poller right after construction: the reset column of R30, the timer acquired but not armed (R151). -/
def Poller.constructed : Poller :=
  { pstate := .idle
    shutdownPending := false
    emitted := []
    reports := []
    fatal := none
    sourceHeld := true
    timer := .unarmed }

/-- The machine right after construction with a configuration, nothing having reached it yet (R151). -/
def State.constructed (c : PollerConfig) : State :=
  { config := c
    poller := Poller.constructed
    inputs := []
    responses := []
    freeDraws := 0 }

/-- The machine right after reset, which is construction (R151), with the default configuration (R6, log 7). The block
has no reset (R150). -/
def State.reset : State :=
  State.constructed PollerConfig.default

end Sys2Proof.Machine
end

