-- ==== Sys2Proof/Machine/Flags.lean ====
section
/-!
DEFINITION. Machine/Flags.lean: the block has no flags (R22); what stands in their place is the status tag of each
response, and the codes of R111.
-/

namespace Sys2Proof.Machine

/-- The code of a response's status (R111). -/
def Status.code : Status → Nat
  | .ok => 0
  | .malformedFrame => 1

/-- The code of a reported error (R111). -/
def Report.code : Report → Nat
  | .malformedFrame _ => 1
  | .receiveError _ => 2
  | .sourceUnavailable => 3

/-- The status an operation's result carries (R22). -/
def statusOf {α : Type} : Except BlockError α → Status
  | .ok _ => .ok
  | .error (.malformedFrame _) => .malformedFrame

/-- The `err_len` an operation's result carries: the offending length on failure, absent otherwise (R26). -/
def errLenOf {α : Type} : Except BlockError α → Option Nat
  | .ok _ => none
  | .error (.malformedFrame n) => some n

end Sys2Proof.Machine
end

