-- ==== Sys2Proof/Machine/Operands.lean ====
section
/-!
DEFINITION. Machine/Operands.lean: the RawFrame byte space and the two operands assembled from it (R40 to R46, R63).
-/

namespace Sys2Proof.Machine

/-- `MemRead(a, 1)` on the RawFrame byte space of one request, whose addresses are 0 to `raw.length - 1` and nothing
else (R8, R40): a read carries the proof that its address exists. -/
def memRead (raw : List Byte) (a : Nat) (h : a < raw.length) : Byte :=
  raw[a]

/-- Little-endian assembly of the identifier, `b0` the least significant byte; nothing is masked (R42, R63, R82). -/
def assembleIdentifier (b0 b1 b2 b3 : Byte) : Word :=
  b0.zeroExtend 32 ||| (b1.zeroExtend 32 <<< 8) ||| (b2.zeroExtend 32 <<< 16) ||| (b3.zeroExtend 32 <<< 24)

/-- The identifier operand: bytes 0 to 3 of a RawFrame (R46). -/
def identifierOf (raw : List Byte) (h : raw.length = Config.rawFrameLen) : Word :=
  assembleIdentifier
    (memRead raw (Config.idOffset + 0) (by rw [h]; decide))
    (memRead raw (Config.idOffset + 1) (by rw [h]; decide))
    (memRead raw (Config.idOffset + 2) (by rw [h]; decide))
    (memRead raw (Config.idOffset + 3) (by rw [h]; decide))

/-- The payload operand: bytes 8 to 15 of a RawFrame, verbatim, in buffer order (R44). Bytes 4 to 7 are not read
(R83). -/
def payloadOf (raw : List Byte) (h : raw.length = Config.rawFrameLen) : Payload :=
  { p0 := memRead raw (Config.payloadOffset + 0) (by rw [h]; decide)
    p1 := memRead raw (Config.payloadOffset + 1) (by rw [h]; decide)
    p2 := memRead raw (Config.payloadOffset + 2) (by rw [h]; decide)
    p3 := memRead raw (Config.payloadOffset + 3) (by rw [h]; decide)
    p4 := memRead raw (Config.payloadOffset + 4) (by rw [h]; decide)
    p5 := memRead raw (Config.payloadOffset + 5) (by rw [h]; decide)
    p6 := memRead raw (Config.payloadOffset + 6) (by rw [h]; decide)
    p7 := memRead raw (Config.payloadOffset + 7) (by rw [h]; decide) }

end Sys2Proof.Machine
end

