-- ==== Sys2Proof/Machine/Ops.lean ====
section
/-!
DEFINITION. Machine/Ops.lean: the shared operations. Hexadecimal text (R91 to R94), raising MalformedFrame (R9, R112)
and answering a request (R26), construction (R151, R131), and the pieces of a tick (R123 to R125, R129, R130).
-/

namespace Sys2Proof.Machine

/-! ### Text -/

/-- `hexdigit(d)`: `0`-`9`, then uppercase `A`-`F` (R91). -/
def hexDigit (d : Nibble) : Byte :=
  if d.toNat ≤ 9 then 0x30 + d.zeroExtend 8 else 0x41 + (d.zeroExtend 8 - 10)

/-- `hex2(b)`: two digits, high nibble first (R92). -/
def hex2 (b : Byte) : DisplayString :=
  [hexDigit (b.extractLsb' 4 4), hexDigit (b.extractLsb' 0 4)]

/-- `payload_hex(p)`: the lanes' digits, lane 0 first (R92). -/
def payloadHex (p : Payload) : DisplayString :=
  p.lanes.flatMap hex2

/-- The loop of R93: digits of `v` are put before `s` until `v` is 0. `fuel` bounds the digits. -/
def idHexLoop (fuel v : Nat) (s : DisplayString) : DisplayString :=
  match fuel with
  | 0 => s
  | fuel + 1 => if v = 0 then s else idHexLoop fuel (v / 16) (hexDigit (BitVec.ofNat 4 (v % 16)) :: s)

/-- `id_hex(v)`: the shortest uppercase spelling, `"0"` for 0 (R93, D6). A 32-bit value has at most 8 digits. -/
def idHex (v : Word) : DisplayString :=
  if v = 0 then [0x30] else idHexLoop 8 v.toNat []

/-- The nibbles of a word, `v[31:28]` first (R94). -/
def nibbles (v : Word) : List Nibble :=
  [v.extractLsb' 28 4, v.extractLsb' 24 4, v.extractLsb' 20 4, v.extractLsb' 16 4,
   v.extractLsb' 12 4, v.extractLsb' 8 4, v.extractLsb' 4 4, v.extractLsb' 0 4]

/-- `m` of R94: how many nibbles stand above the highest nonzero one, 8 when there is none. -/
def leadingZeroNibbles (v : Word) : Nat :=
  ((nibbles v).takeWhile (· == 0)).length

/-- The closed form of `id_hex`: all 8 digits, the first `min(m, 7)` removed (R94). -/
def idHexClosed (v : Word) : DisplayString :=
  ((nibbles v).map hexDigit).drop (min (leadingZeroNibbles v) 7)

/-- The DisplayString of a frame: identifier, one `#`, payload, and nothing else (R90, R96). -/
def displayString (f : CanFrame) : DisplayString :=
  idHex f.identifier ++ [0x23] ++ payloadHex f.payload

/-! ### Errors and responses -/

/-- `raise MalformedFrame(n)`: the operation ends with no output value; nothing is saved and control goes nowhere
(R9, R112, R114). -/
def raiseMalformedFrame {α : Type} (n : Nat) : Except BlockError α :=
  .error (.malformedFrame n)

/-- The response that carries DECODE's result (R27). -/
def frameResponse (r : Except BlockError CanFrame) : Response :=
  { status := statusOf r, errLen := errLenOf r, frameOut := r.toOption, textOut := none }

/-- The response that carries a text result, of RENDER or DECODE_RENDER (R27). -/
def textResponse (r : Except BlockError DisplayString) : Response :=
  { status := statusOf r, errLen := errLenOf r, frameOut := none, textOut := r.toOption }

/-- A request is answered: its response goes out on the response channel, and nothing else changes (R26, R29). -/
def State.respond (s : State) (r : Response) : State :=
  { s with responses := s.responses ++ [r] }

/-! ### Construction -/

/-- Constructing the Poller with a configuration (R151). It does not depend on whether the interface could be bound
(R152). A period that is not positive is refused, and there is no Poller (R131). -/
def State.construct (c : PollerConfig) : Host.Outcome State Fault Refusal :=
  if c.wf then .next (State.constructed c) else .refused (.nonPositivePollPeriod c.pollPeriodMs)

/-! ### The Poller -/

/-- Entering Stopped releases the Frame Source handle and the timer (R129). -/
def Poller.stop (p : Poller) : Poller :=
  { p with pstate := .stopped, sourceHeld := false, timer := .released }

/-- A tick completes: back to Waiting, or to Stopped if a shutdown is pending (R123, R124). -/
def Poller.completeTick (p : Poller) : Poller :=
  if p.shutdownPending then p.stop else { p with pstate := .waiting }

/-- The string is handed to the Sink, which counts as an emission whatever the Sink then does (R119, R123). -/
def Poller.emit (p : Poller) (text : DisplayString) : Poller :=
  { p with emitted := p.emitted ++ [text] }

/-- An error is reported (R124). -/
def Poller.report (p : Poller) (r : Report) : Poller :=
  { p with reports := p.reports ++ [r] }

/-- The hand-off of a tick's text, with the Sink's draw: a failure is reported only when it is to be surfaced, and the
string still counts as emitted (R119, R130). -/
def Poller.handOff (p : Poller) (surface sinkFails : Bool) (text : DisplayString) : Poller :=
  if surface && sinkFails then (p.emit text).report (.receiveError .sink) else p.emit text

/-- A fatal error is surfaced to the host and the Poller stops (R125). Whether it is also reported is open: `also`
decides (D16). -/
def Poller.fail (p : Poller) (also : Bool) : Poller :=
  Poller.stop { p with
    fatal := some .sourceUnavailable
    reports := if also then p.reports ++ [.sourceUnavailable] else p.reports }

/-- A step of the environment that rewrites the Poller's record alone. -/
def State.withPoller (s : State) (p : Poller) : State :=
  { s with poller := p }

end Sys2Proof.Machine
end

