-- ==== Sys2Proof/Machine/Codec.lean ====
section
/-!
DEFINITION. Machine/Codec.lean: the block's operations as functions of their operands (R80, R90, R100), and the meaning
of each instruction over them.
-/

namespace Sys2Proof.Machine

/-- `DECODE(raw)`: the length is tested before any byte is read (R80, R81). -/
def decodeOp (raw : List Byte) : Except BlockError CanFrame :=
  if h : raw.length = Config.rawFrameLen then
    .ok { identifier := identifierOf raw h, payload := payloadOf raw h }
  else raiseMalformedFrame raw.length

/-- `RENDER(frame)`, which never fails (R90, R95). -/
def renderOp (frame : CanFrame) : Except BlockError DisplayString :=
  .ok (displayString frame)

/-- `DECODE_RENDER(raw)`: DECODE, then RENDER on its frame; a MalformedFrame is raised again (R100). -/
def decodeRenderOp (raw : List Byte) : Except BlockError DisplayString :=
  match decodeOp raw with
  | .error (.malformedFrame n) => raiseMalformedFrame n
  | .ok frame => renderOp frame

/-- DECODE (R80). -/
def execDecode (raw : List Byte) (s : State) : Host.Outcome State Fault Refusal :=
  .next (s.respond (frameResponse (decodeOp raw)))

/-- RENDER (R90). -/
def execRender (frame : CanFrame) (s : State) : Host.Outcome State Fault Refusal :=
  .next (s.respond (textResponse (renderOp frame)))

/-- DECODE_RENDER (R100). -/
def execDecodeRender (raw : List Byte) (s : State) : Host.Outcome State Fault Refusal :=
  .next (s.respond (textResponse (decodeRenderOp raw)))

/-- RESERVED: refused, with no meaning and no response; neither a hint nor a no-op (R71). -/
def execReserved (_s : State) : Host.Outcome State Fault Refusal :=
  .refused .reservedSelector

end Sys2Proof.Machine
end

