-- ==== Sys2Proof/Machine/Dispatch.lean ====
section
/-!
DEFINITION. Machine/Dispatch.lean: exec, one arm per row of the opcode table (R70).
-/

namespace Sys2Proof.Machine

def exec (i : Instr) (s : State) : Host.Outcome State Fault Refusal :=
  match i with
  | .decode raw => Sys2Proof.Machine.execDecode raw s
  | .render frame => Sys2Proof.Machine.execRender frame s
  | .decodeRender raw => Sys2Proof.Machine.execDecodeRender raw s
  | .reserved => Sys2Proof.Machine.execReserved s

end Sys2Proof.Machine
end

