-- ==== Sys2Proof/Machine/Environment.lean ====
section
/-!
DEFINITION. Machine/Environment.lean: the Poller's transitions (R120 to R130), one definition per event.
-/

namespace Sys2Proof.Machine

/-- START arms the timer and moves Idle to Waiting; elsewhere it has no effect (R121, R151). -/
def onStart (s : State) : State :=
  match s.poller.pstate with
  | .idle => s.withPoller { s.poller with pstate := .waiting, timer := .armed }
  | .waiting => s
  | .polling => s
  | .stopped => s

/-- A timer fire in Waiting begins a tick: `receive()` is called, and is outstanding while the Poller is in Polling
(R122). In Polling the fire is deferred, which an untimed model does not record (R127); in Stopped it has no effect
(R126). In Idle the timer is not armed, so no fire comes; the model ignores one (log 10). -/
def onFire (s : State) : State :=
  match s.poller.pstate with
  | .idle => s
  | .waiting => s.withPoller { s.poller with pstate := .polling }
  | .polling => s
  | .stopped => s

/-- SHUTDOWN: at once in Idle and Waiting; in Polling it waits for the tick in flight; no effect in Stopped (R128). -/
def onShutdown (s : State) : State :=
  match s.poller.pstate with
  | .idle => s.withPoller s.poller.stop
  | .waiting => s.withPoller s.poller.stop
  | .polling => s.withPoller { s.poller with shutdownPending := true }
  | .stopped => s

/-- A tick whose `receive()` returned bytes: DECODE_RENDER, then hand-off and completion (R123, R130), or the report
of a MalformedFrame and completion (R124). The order is decode, render, emit (R113). -/
def tickBytes (raw : List Byte) (sinkFails : Bool) (s : State) : State :=
  match decodeRenderOp raw with
  | .ok text => s.withPoller (s.poller.handOff s.config.surfaceSinkFailure sinkFails text).completeTick
  | .error (.malformedFrame n) => s.withPoller (s.poller.report (.malformedFrame n)).completeTick

/-- A tick whose `receive()` failed with ReceiveError: reported and skipped (R124). -/
def tickReceiveError (s : State) : State :=
  s.withPoller (s.poller.report (.receiveError .source)).completeTick

/-- A tick whose `receive()` failed with SourceUnavailable: fatal (R125). The open choice is drawn (log 9). -/
def tickUnavailable (s : State) : State :=
  { s with poller := s.poller.fail (Config.fatalAlsoReported s.freeDraws), freeDraws := s.freeDraws + 1 }

/-- The tick in flight ends with the outcome of its `receive()` (R118). -/
def tick (outcome : ReceiveOutcome) (sinkFails : Bool) (s : State) : State :=
  match outcome with
  | .bytes raw => tickBytes raw sinkFails s
  | .receiveError => tickReceiveError s
  | .sourceUnavailable => tickUnavailable s

/-- `receive()` returns. A call is outstanding in Polling only; elsewhere there is nothing that could return, and the
model ignores the event (log 10). -/
def onReceiveReturns (outcome : ReceiveOutcome) (sinkFails : Bool) (s : State) : State :=
  match s.poller.pstate with
  | .idle => s
  | .waiting => s
  | .polling => tick outcome sinkFails s
  | .stopped => s

/-- One event of the environment (R120). -/
def pollerEvent (e : Event) (s : State) : State :=
  match e with
  | .start => onStart s
  | .fire => onFire s
  | .receiveReturns outcome sinkFails => onReceiveReturns outcome sinkFails s
  | .shutdown => onShutdown s

end Sys2Proof.Machine
end

