-- ==== Sys2Proof/Machine/Fetch.lean ====
section
/-!
DEFINITION. Machine/Fetch.lean: what Step.lean calls to take the next input. The machine fetches no instructions
(R21, R54): requests and events reach it from outside, in the order `inputs` holds them (log 2, log 6).
-/

namespace Sys2Proof.Machine

/-- The state once its oldest input has been taken, `rest` being the others. -/
def State.withInputs (s : State) (rest : List Input) : State :=
  { s with inputs := rest }

/-- A request put in front of whatever else is to come, so that the next step takes it. -/
def State.withNextRequest (s : State) (r : Request) : State :=
  s.withInputs (.request r :: s.inputs)

/-- The request of an opcode-table word put in front; nothing where the word is no request. -/
def fetchTableWord (s : State) (nbits w : Nat) : State :=
  match tableRequest nbits w with
  | some r => s.withNextRequest r
  | none => s

end Sys2Proof.Machine
end

