-- ==== Sys2Proof/Machine/Step.lean ====
section
/-!
DEFINITION. Machine/Step.lean: one step takes the oldest input. A request is decoded and executed (R70); an event
moves the Poller (R120). With no input to take, nothing happens: a `receive()` that never returns is such a run (R133).
-/

namespace Sys2Proof.Machine

/-- One step of the machine (log 2). -/
def step (s : State) : Host.Outcome State Fault Refusal :=
  match s.inputs with
  | [] => .next s
  | .request r :: rest => exec (decode r) (s.withInputs rest)
  | .event e :: rest => .next (pollerEvent e (s.withInputs rest))

/-- `s` with the instruction of an opcode-table word as its next input (log 5, log 6). -/
def State.withFetchWord (s : State) (nbits w : Nat) : State :=
  fetchTableWord s nbits w

end Sys2Proof.Machine
end

