-- ==== Sys2Proof/Safety.lean ====
section
/-!
DEFINITION. Safety.lean: the terms claims use. Well-formed reports and responses, the invariant of the machine, the
observation of a run (R140), and what a sequence of ticks emits and reports (R135).
-/

namespace Sys2Proof.Machine

/-- A report that can arise (R111, R112, R130): a MalformedFrame records a length other than 16, and a Sink failure is
reported only where it is surfaced. -/
def Report.wf (surface : Bool) : Report → Bool
  | .malformedFrame n => n != Config.rawFrameLen
  | .receiveError .source => true
  | .receiveError .sink => surface
  | .sourceUnavailable => true

/-- A response R27 allows: OK with exactly one of a frame and a DisplayString, or MALFORMED_FRAME with a length other
than 16 and nothing else. -/
def Response.wf (r : Response) : Bool :=
  match r.status, r.errLen, r.frameOut, r.textOut with
  | .ok, none, some _, none => true
  | .ok, none, none, some t => isDisplayString t
  | .malformedFrame, some n, none, none => n != Config.rawFrameLen
  | _, _, _, _ => false

/-- Where the Poller's timer stands in each state (R121, R129, R151). -/
def timerIn : PState → Timer
  | .idle => .unarmed
  | .waiting => .armed
  | .polling => .armed
  | .stopped => .released

/-- The machine's invariant. -/
structure Inv (s : State) : Prop where
  /-- The configuration is legal (R131). -/
  config_legal : s.config.wf = true
  /-- The Frame Source handle is held exactly outside Stopped (R129, R155 d). -/
  source_held : s.poller.sourceHeld = true ↔ s.poller.pstate ≠ .stopped
  /-- The timer follows the Poller's state (R121, R129). -/
  timer_follows : s.poller.timer = timerIn s.poller.pstate
  /-- A shutdown waits only while a tick is in flight, or has been honoured (R128). -/
  shutdown_waits : s.poller.shutdownPending = true → s.poller.pstate = .polling ∨ s.poller.pstate = .stopped
  /-- A fatal error stops the Poller (R125). -/
  fatal_stops : s.poller.fatal ≠ none → s.poller.pstate = .stopped
  /-- Before START nothing has been emitted or reported (R151, R122). -/
  idle_silent : s.poller.pstate = .idle → s.poller.emitted = [] ∧ s.poller.reports = []
  /-- Everything handed to the Sink obeys the grammar (R66, R135). -/
  emitted_wf : ∀ t ∈ s.poller.emitted, isDisplayString t = true
  /-- Every report is one R111 allows. -/
  reports_wf : ∀ r ∈ s.poller.reports, r.wf s.config.surfaceSinkFailure = true
  /-- Every response is one R27 allows. -/
  responses_wf : ∀ r ∈ s.responses, r.wf = true

/-- What is observed of a run, at its end or after any prefix of it (R140). -/
structure Observation where
  emitted : List DisplayString
  reports : List Report
  fatal : Option FatalError
  deriving DecidableEq, Repr

def State.observation (s : State) : Observation :=
  { emitted := s.poller.emitted, reports := s.poller.reports, fatal := s.poller.fatal }

/-- The run has ended (R140). -/
def State.ended (s : State) : Prop :=
  s.poller.pstate = .stopped

/-- The inputs of one tick line `TICK …` of R73: the fire, then the return of its `receive()`. -/
def tickInputs (outcome : ReceiveOutcome) (sinkFails : Bool) : List Input :=
  [.event .fire, .event (.receiveReturns outcome sinkFails)]

/-- What a tick with this outcome emits: the DisplayString of its bytes when the tick succeeds, else nothing (R123,
R124, R125). -/
def tickEmission (outcome : ReceiveOutcome) : Option DisplayString :=
  match outcome with
  | .bytes raw => (decodeRenderOp raw).toOption
  | .receiveError => none
  | .sourceUnavailable => none

/-- Whether an input lets an outstanding `receive()` return. -/
def Input.isReceiveReturn : Input → Bool
  | .event (.receiveReturns _ _) => true
  | .event .start => false
  | .event .fire => false
  | .event .shutdown => false
  | .request _ => false

/-- Whether an input is a request with the reserved selector. -/
def Input.isReserved : Input → Bool
  | .request r => r.op == 0b11
  | .event _ => false

/-- `k` steps from `s`, stopping at the first refusal. -/
abbrev runSteps (k : Nat) (s : State) : Host.Outcome State Fault Refusal :=
  Host.Core.run Sys2Proof.core k s

end Sys2Proof.Machine
end

