-- ==== Sys2Proof/Certificates/Slice0/Obligations.lean ====
section
/-!
DEFINITION. Certificates/Slice0/Obligations.lean: the statements for the provers, in the order of the spec's rules.
-/

open Sys2Proof Sys2Proof.Machine

/-! ### Formats and selection (30_encoding.md) -/

/-- R70: the selector words of the table, written out, select the row's operation with the operand of that row. -/
def Obligations.SelectorWordsSelectTheirRow : Prop :=
  ∀ (raw : List Byte) (frame : CanFrame),
    decode { op := 0b00, raw := raw, frame := frame } = .decode raw ∧
    decode { op := 0b01, raw := raw, frame := frame } = .render frame ∧
    decode { op := 0b10, raw := raw, frame := frame } = .decodeRender raw ∧
    decode { op := 0b11, raw := raw, frame := frame } = .reserved

/-- R73 with the byte order of log 4: the line of an instruction reads back as that instruction, every operand at every
value. The identifier's byte order is the model's choice (log 4). -/
def Obligations.LineDecodesWhatItEncodes : Prop :=
  ∀ i : Instr, decodeLine (encodeLine i) = .ok i

/-- A line that reads as an instruction is that instruction's own line, so no operand byte is dropped. A reserved line is
excepted: R71 gives it no operands and takes it whatever it carries. The line form is the model's (log 4). -/
def Obligations.LineIsItsInstructionsLine : Prop :=
  ∀ (l : Line) (i : Instr), decodeLine l = .ok i → i ≠ .reserved → encodeLine i = l

/-- A line is turned away exactly when it is a RENDER line whose operand bytes are not the 12 of a CanFrame, and the
refusal names their number (log 4). -/
def Obligations.LineRefusedExactlyOffTwelveRenderBytes : Prop :=
  ∀ (l : Line) (e : LineRefusal),
    decodeLine l = .error e ↔ l.op = 0b01 ∧ l.operands.length ≠ 12 ∧ e = .frameOperandLength l.operands.length

/-- R26: a request field the selected operation does not use has no effect on what the step does. -/
def Obligations.UnusedRequestFieldsHaveNoEffect : Prop :=
  ∀ (s : State) (rest : List Input) (r r' : Request), r.op = r'.op →
    ((r.op = 0b00 ∨ r.op = 0b10) → r.raw = r'.raw) → (r.op = 0b01 → r.frame = r'.frame) →
    step (s.withInputs (.request r :: rest)) = step (s.withInputs (.request r' :: rest))

/-- R71: a request with selector 11 is refused, whatever its operands: no response, no next state. -/
def Obligations.ReservedSelectorIsRefused : Prop :=
  (∀ s : State, exec .reserved s = .refused .reservedSelector) ∧
  ∀ (s : State) (r : Request) (rest : List Input), r.op = 0b11 →
    step (s.withInputs (.request r :: rest)) = .refused .reservedSelector

/-! ### The step -/

/-- A step whose oldest input is a request runs the decoded instruction, on the state less that input. -/
def Obligations.StepRunsTheDecodedRequest : Prop :=
  ∀ (s : State) (r : Request) (rest : List Input) (i : Instr), s.inputs = .request r :: rest → decode r = i →
    step s = exec i (s.withInputs rest)

/-- A step whose oldest input is an event runs that event on the state less that input, and always answers. With no
input a step changes nothing: that is the model's own convention (log 2). -/
def Obligations.StepRunsTheEventOrWaits : Prop :=
  (∀ (s : State) (e : Event) (rest : List Input), s.inputs = .event e :: rest →
    step s = .next (pollerEvent e (s.withInputs rest))) ∧
  ∀ s : State, s.inputs = [] → step s = .next s

/-! ### DECODE (40_decode.md) -/

/-- R80, R42, R44: selector 00 is DECODE of `raw`; a 16-byte buffer decodes to the little-endian identifier of bytes 0 to
3 and bytes 8 to 15 verbatim, and the response holds nothing else; any other length is a MalformedFrame. DECODE completes
on every buffer. -/
def Obligations.DecodeAnswersEveryBuffer : Prop :=
  (∀ (raw : List Byte) (frame : CanFrame), decode { op := 0b00, raw := raw, frame := frame } = .decode raw) ∧
  (∀ (s : State) (b0 b1 b2 b3 g0 g1 g2 g3 p0 p1 p2 p3 p4 p5 p6 p7 : Byte),
    exec (.decode [b0, b1, b2, b3, g0, g1, g2, g3, p0, p1, p2, p3, p4, p5, p6, p7]) s =
      .next { s with responses := s.responses ++
        [{ status := .ok, errLen := none, textOut := none,
           frameOut := some { identifier := (b3 ++ b2) ++ (b1 ++ b0), payload := ⟨p0, p1, p2, p3, p4, p5, p6, p7⟩ } }] }) ∧
  ∀ (s : State) (raw : List Byte), raw.length ≠ 16 →
    exec (.decode raw) s =
      .next { s with responses := s.responses ++
        [{ status := .malformedFrame, errLen := some raw.length, frameOut := none, textOut := none }] }

/-- R81: DECODE fails when and only when the length is not 16; the failure records the length and carries no CanFrame,
and depends on the length alone. -/
def Obligations.DecodeFailsExactlyOffSixteenBytes : Prop :=
  ∀ (s : State) (raw : List Byte), ∃ r : Response,
    exec (.decode raw) s = .next { s with responses := s.responses ++ [r] } ∧
    (r.status = .malformedFrame ↔ raw.length ≠ 16) ∧
    (raw.length ≠ 16 → r.errLen = some raw.length ∧ r.frameOut = none ∧ r.textOut = none) ∧
    (∀ raw' : List Byte, raw.length ≠ 16 → raw'.length = raw.length → exec (.decode raw') s = exec (.decode raw) s)

/-- R82, R42: the identifier DECODE returns is the full 32-bit number of bytes 0 to 3, byte 0 least significant; and each
of the 2^32 values is the identifier DECODE returns for some buffer, so none is masked away or rejected. -/
def Obligations.DecodeNeverMasksTheIdentifier : Prop :=
  (∀ b0 b1 b2 b3 : Byte, ∀ rest : List Byte, rest.length = 12 → ∃ f : CanFrame,
    (∀ s : State, exec (.decode (b0 :: b1 :: b2 :: b3 :: rest)) s =
      .next { s with responses := s.responses ++
        [{ status := .ok, errLen := none, frameOut := some f, textOut := none }] }) ∧
    f.identifier.toNat = b0.toNat + 2 ^ 8 * b1.toNat + 2 ^ 16 * b2.toNat + 2 ^ 24 * b3.toNat) ∧
  ∀ v : Word, ∃ (raw : List Byte) (f : CanFrame), f.identifier = v ∧ ∀ s : State, exec (.decode raw) s =
    .next { s with responses := s.responses ++
      [{ status := .ok, errLen := none, frameOut := some f, textOut := none }] }

/-- R62: whatever bytes 4 to 7 hold, the buffer is accepted, and two RawFrames that differ only there get the same answer
from DECODE and from DECODE_RENDER. -/
def Obligations.GapBytesNeverMatter : Prop :=
  ∀ (s : State) (ident gap gap' payload : List Byte),
    ident.length = 4 → gap.length = 4 → gap'.length = 4 → payload.length = 8 →
    (∃ f : CanFrame, exec (.decode (ident ++ gap ++ payload)) s =
      .next { s with responses := s.responses ++
        [{ status := .ok, errLen := none, frameOut := some f, textOut := none }] }) ∧
    exec (.decode (ident ++ gap ++ payload)) s = exec (.decode (ident ++ gap' ++ payload)) s ∧
    exec (.decodeRender (ident ++ gap ++ payload)) s = exec (.decodeRender (ident ++ gap' ++ payload)) s

/-! ### RENDER (41_render.md) -/

/-- R91: the sixteen digits are the characters `0` to `9` and `A` to `F`, in uppercase. -/
def Obligations.HexDigitsAreUppercaseAscii : Prop :=
  ∀ d : Nibble,
    (d.toNat ≤ 9 → (hexDigit d).toNat = 0x30 + d.toNat) ∧
    (10 ≤ d.toNat → (hexDigit d).toNat = 0x41 + (d.toNat - 10))

/-- R92: a byte's text is its high digit, then its low digit; the payload's text is 16 characters, and characters 2k and
2k+1 are the high and the low digit of lane k. -/
def Obligations.PayloadTextIsTwoDigitsPerLane : Prop :=
  (∀ b : Byte, hex2 b = [hexDigit (b.extractLsb' 4 4), hexDigit (b.extractLsb' 0 4)]) ∧
  ∀ p : Payload, (payloadHex p).length = 16 ∧
    ∀ (k : Nat) (b : Byte), p.lanes[k]? = some b →
      (payloadHex p)[2 * k]? = some (hexDigit (b.extractLsb' 4 4)) ∧
      (payloadHex p)[2 * k + 1]? = some (hexDigit (b.extractLsb' 0 4))

/-- R93: the identifier's text spells the number: reading its digits back, most significant first, gives the value; it
has 1 to 8 characters, all of them hex digits, and begins with `0` only for 0, which is `"0"`. -/
def Obligations.IdentifierTextIsTheShortestSpelling : Prop :=
  ∀ v : Word, ∃ ds : List Nibble, idHex v = ds.map hexDigit ∧
    ds.foldl (fun n d => 16 * n + d.toNat) 0 = v.toNat ∧
    1 ≤ ds.length ∧ ds.length ≤ 8 ∧ (ds.head? = some 0 ↔ v = 0) ∧ (v = 0 → ds = [0])

/-- R94: the loop of R93 and the closed form agree on every value. -/
def Obligations.IdentifierTextEqualsTheClosedForm : Prop :=
  ∀ v : Word, idHex v = idHexClosed v

/-- R90, R95, R96: selector 01 is RENDER of `frame`; it completes on every frame with status OK, and its text is the
identifier's digits (in the closed form of R94), one `#`, the sixteen payload digits, and nothing else. -/
def Obligations.RenderAnswersEveryFrame : Prop :=
  (∀ (raw : List Byte) (frame : CanFrame), decode { op := 0b01, raw := raw, frame := frame } = .render frame) ∧
  ∀ (s : State) (f : CanFrame),
    exec (.render f) s =
      .next { s with responses := s.responses ++
        [{ status := .ok, errLen := none, frameOut := none,
           textOut := some (((nibbles f.identifier).map hexDigit).drop (min (leadingZeroNibbles f.identifier) 7) ++ 0x23 ::
             f.payload.lanes.flatMap fun b => [hexDigit (b.extractLsb' 4 4), hexDigit (b.extractLsb' 0 4)]) }] }

/-- R66: every DisplayString obeys the grammar. -/
def Obligations.RenderedTextObeysTheGrammar : Prop :=
  ∀ f : CanFrame, isDisplayString (displayString f) = true

/-- R68: a DisplayString has exactly one `#`, at an index between 1 and 8 which is the identifier text's length; the
total length is that plus 17; the characters after it are the payload's digits. -/
def Obligations.RenderedTextHasItsShape : Prop :=
  ∀ f : CanFrame, ∃ n : Nat, n = (idHex f.identifier).length ∧ 1 ≤ n ∧ n ≤ 8 ∧
    (displayString f).length = n + 17 ∧
    (∀ j : Nat, (displayString f)[j]? = some 0x23 ↔ j = n) ∧
    ∀ (k : Nat) (b : Byte), f.payload.lanes[k]? = some b →
      (displayString f)[n + 1 + 2 * k]? = some (hexDigit (b.extractLsb' 4 4)) ∧
      (displayString f)[n + 2 + 2 * k]? = some (hexDigit (b.extractLsb' 0 4))

/-- R69: a DisplayString determines its CanFrame. -/
def Obligations.RenderIsInjective : Prop :=
  ∀ (f g : CanFrame) (s t : State), exec (.render f) s = .next t → exec (.render g) s = .next t → f = g

/-! ### DECODE_RENDER (41_render.md) -/

/-- R100: selector 10 is DECODE_RENDER of `raw`, which completes on every buffer: on 16 bytes it answers what RENDER
answers for the frame DECODE gives; on any other length it answers DECODE's MalformedFrame, with no text. -/
def Obligations.DecodeRenderIsDecodeThenRender : Prop :=
  (∀ (raw : List Byte) (frame : CanFrame), decode { op := 0b10, raw := raw, frame := frame } = .decodeRender raw) ∧
  (∀ (s : State) (raw : List Byte), raw.length = 16 → ∃ (f : CanFrame) (text : DisplayString),
    exec (.decode raw) s =
      .next { s with responses := s.responses ++
        [{ status := .ok, errLen := none, frameOut := some f, textOut := none }] } ∧
    exec (.decodeRender raw) s =
      .next { s with responses := s.responses ++
        [{ status := .ok, errLen := none, frameOut := none, textOut := some text }] } ∧
    exec (.render f) s = exec (.decodeRender raw) s) ∧
  ∀ (s : State) (raw : List Byte), raw.length ≠ 16 →
    exec (.decodeRender raw) s =
      .next { s with responses := s.responses ++
        [{ status := .malformedFrame, errLen := some raw.length, frameOut := none, textOut := none }] }

/-- R101: a 16-byte input gets one text, the same in every state and every time, and nothing else is written; two such
inputs get the same text exactly when they agree on bytes 0 to 3 and 8 to 15. -/
def Obligations.DecodeRenderAgreesExactlyOnTheFieldBytes : Prop :=
  ∀ ident gap payload ident' gap' payload' : List Byte,
    ident.length = 4 → gap.length = 4 → payload.length = 8 →
    ident'.length = 4 → gap'.length = 4 → payload'.length = 8 →
    ∃ text text' : DisplayString,
      (∀ s : State, exec (.decodeRender (ident ++ gap ++ payload)) s = .next { s with responses := s.responses ++
        [{ status := .ok, errLen := none, frameOut := none, textOut := some text }] }) ∧
      (∀ s : State, exec (.decodeRender (ident' ++ gap' ++ payload')) s = .next { s with responses := s.responses ++
        [{ status := .ok, errLen := none, frameOut := none, textOut := some text' }] }) ∧
      (text = text' ↔ ident = ident' ∧ payload = payload')

/-! ### The block as a whole -/

/-- R84, R97, R20 to R24: what DECODE, RENDER and DECODE_RENDER leave unchanged. One response is added; the Poller's
record (its state, pending shutdown, emissions, reports, fatal error, handle and timer), the configuration, the inputs
and the free draws are as before. There is no memory to change (R40). -/
def Obligations.BlockOperationsOnlyAnswer : Prop :=
  ∀ (i : Instr) (s t : State), exec i s = .next t →
    t.poller = s.poller ∧ t.config = s.config ∧ t.inputs = s.inputs ∧ t.freeDraws = s.freeDraws ∧
    ∃ r : Response, t.responses = s.responses ++ [r]

/-- R29, R51: equal requests get equal responses whatever the rest of the machine holds and whatever ran before. -/
def Obligations.ResponsesDependOnTheRequestAlone : Prop :=
  ∀ (s s' : State) (rest rest' : List Input) (r : Request) (t : State),
    step (s.withInputs (.request r :: rest)) = .next t →
    ∃ (out : Response) (t' : State), step (s'.withInputs (.request r :: rest')) = .next t' ∧
      t.responses = s.responses ++ [out] ∧ t'.responses = s'.responses ++ [out]

/-- R117: there is one mode and no privilege. A request with selector 00, 01 or 10 is answered in every state of the
machine, whatever the Poller is doing, with one response and no other effect. -/
def Obligations.EveryRequestOffElevenIsAnswered : Prop :=
  ∀ (s : State) (r : Request) (rest : List Input), r.op ≠ 0b11 → ∃ out : Response,
    step (s.withInputs (.request r :: rest)) = .next { s with inputs := rest, responses := s.responses ++ [out] }

/-- R111: the codes of statuses and reports. -/
def Obligations.ErrorCodesAreTheSpecs : Prop :=
  Status.code .ok = 0 ∧ Status.code .malformedFrame = 1 ∧
  ∀ n : Nat, Report.code (.malformedFrame n) = 1 ∧ Report.code (.receiveError .source) = 2 ∧
    Report.code (.receiveError .sink) = 2 ∧ Report.code .sourceUnavailable = 3

/-! ### Construction (70_reset_and_hazards.md) -/

/-- R151: construction takes a legal configuration, acquires the handle and the timer without arming it, and sets the
record to its reset column. Reset is that construction at the default configuration (the empty `interface_name` is the
model's choice, log 7). R150: no operation's answer depends on it, which ResponsesDependOnTheRequestAlone says. -/
def Obligations.ConstructionSetsTheResetColumn : Prop :=
  (∀ c : PollerConfig, 0 < c.pollPeriodMs → ∃ s : State, State.construct c = .next s ∧
    s.config = c ∧ s.poller.pstate = .idle ∧ s.poller.shutdownPending = false ∧ s.poller.emitted = [] ∧
    s.poller.reports = [] ∧ s.poller.fatal = none ∧ s.poller.sourceHeld = true ∧ s.poller.timer = .unarmed) ∧
  State.construct PollerConfig.default = .next State.reset ∧
  State.reset.config.pollPeriodMs = 100 ∧ State.reset.config.surfaceSinkFailure = false

/-- R131: a period that is not a positive integer is refused at construction, and there is no Poller. -/
def Obligations.ConstructionRefusesANonPositivePeriod : Prop :=
  ∀ c : PollerConfig, c.pollPeriodMs ≤ 0 → State.construct c = .refused (.nonPositivePollPeriod c.pollPeriodMs)

/-- R152: a failed bind does not show at construction; the first tick then ends in Stopped with nothing emitted. -/
def Obligations.FailedBindShowsAtTheFirstTick : Prop :=
  ∀ (c : PollerConfig) (s : State) (b : Bool), State.construct c = .next s →
    s.poller.pstate = .idle ∧
    ∃ t : State, runSteps 3 (s.withInputs (.event .start :: tickInputs .sourceUnavailable b)) = .next t ∧
      t.poller.pstate = .stopped ∧ t.poller.fatal = some .sourceUnavailable ∧ t.poller.emitted = [] ∧
      t.poller.sourceHeld = false

/-! ### The Poller (60_exceptions.md) -/

/-- R120: the initial state is Idle, and each event of the table leads from each state where the table says. A tick
completes when its `receive()` returns bytes or a ReceiveError. -/
def Obligations.PollerFollowsItsTransitionTable : Prop :=
  (∀ c : PollerConfig, (State.constructed c).poller.pstate = .idle) ∧
  ∀ (s : State) (e : Event) (o : ReceiveOutcome) (b : Bool),
    (s.poller.pstate = .idle →
      (pollerEvent .start s).poller.pstate = .waiting ∧ (pollerEvent .shutdown s).poller.pstate = .stopped) ∧
    (s.poller.pstate = .waiting →
      (pollerEvent .fire s).poller.pstate = .polling ∧ (pollerEvent .shutdown s).poller.pstate = .stopped) ∧
    (s.poller.pstate = .polling →
      (o ≠ .sourceUnavailable → (pollerEvent (.receiveReturns o b) s).poller.pstate =
        if s.poller.shutdownPending then .stopped else .waiting) ∧
      (pollerEvent (.receiveReturns .sourceUnavailable b) s).poller.pstate = .stopped ∧
      (pollerEvent .shutdown s).poller.pstate = .polling ∧ (pollerEvent .shutdown s).poller.shutdownPending = true ∧
      (pollerEvent .fire s).poller.pstate = .polling) ∧
    (s.poller.pstate = .stopped → (pollerEvent e s).poller.pstate = .stopped)

/-- The events R120 has no row for, where the model's convention is that nothing changes (log 10): a fire in Idle, whose
timer is not armed, and a return where no `receive()` is outstanding. -/
def Obligations.EventsWithNoRowChangeNothing : Prop :=
  ∀ (s : State) (o : ReceiveOutcome) (b : Bool),
    (s.poller.pstate = .idle → pollerEvent .fire s = s) ∧
    (s.poller.pstate ≠ .polling → pollerEvent (.receiveReturns o b) s = s)

/-- R121: START in Idle moves to Waiting and arms the timer, and changes nothing else; in any other state it has no
effect. -/
def Obligations.StartArmsOnlyAnIdlePoller : Prop :=
  ∀ s : State,
    (s.poller.pstate = .idle →
      pollerEvent .start s = { s with poller := { s.poller with pstate := .waiting, timer := .armed } }) ∧
    (s.poller.pstate ≠ .idle → pollerEvent .start s = s)

/-- R127, R122: a fire in Waiting begins the one tick and changes nothing else; a fire while a tick is in flight changes
nothing at all. -/
def Obligations.TicksNeverOverlap : Prop :=
  ∀ s : State,
    (s.poller.pstate = .waiting → pollerEvent .fire s = { s with poller := { s.poller with pstate := .polling } }) ∧
    (s.poller.pstate = .polling → pollerEvent .fire s = s)

/-- R123, R119: a tick whose bytes DECODE_RENDER answers with a text hands exactly that DisplayString to the Sink, once,
in order, and changes nothing else, whether or not the Sink fails, unless that failure is to be surfaced; then the Poller
waits, or stops and releases if a shutdown is pending. That the tick's own DECODE_RENDER adds no entry to `responses` is
the model's choice (log 3). -/
def Obligations.SuccessfulTickEmitsItsText : Prop :=
  ∀ (s : State) (raw : List Byte) (b : Bool) (text : DisplayString), s.poller.pstate = .polling →
    s.config.surfaceSinkFailure = false ∨ b = false →
    exec (.decodeRender raw) s =
      .next { s with responses := s.responses ++
        [{ status := .ok, errLen := none, frameOut := none, textOut := some text }] } →
    (s.poller.shutdownPending = false → pollerEvent (.receiveReturns (.bytes raw) b) s =
      { s with poller := { s.poller with pstate := .waiting, emitted := s.poller.emitted ++ [text] } }) ∧
    (s.poller.shutdownPending = true → pollerEvent (.receiveReturns (.bytes raw) b) s =
      { s with poller := { s.poller with pstate := .stopped, emitted := s.poller.emitted ++ [text],
                                         sourceHeld := false, timer := .released } })

/-- R124: a tick that fails locally adds one report with its kind and info, emits nothing, and the Poller waits, or
stops if a shutdown is pending. That the DECODE_RENDER of a malformed tick adds no entry to `responses` is the model's
choice (log 3). -/
def Obligations.LocalErrorIsReportedAndTheTickSkipped : Prop :=
  ∀ (s : State) (o : ReceiveOutcome) (b : Bool) (r : Report), s.poller.pstate = .polling →
    ((o = .receiveError ∧ r = .receiveError .source) ∨
      ∃ raw : List Byte, o = .bytes raw ∧ raw.length ≠ 16 ∧ r = .malformedFrame raw.length) →
    (s.poller.shutdownPending = false → pollerEvent (.receiveReturns o b) s =
      { s with poller := { s.poller with pstate := .waiting, reports := s.poller.reports ++ [r] } }) ∧
    (s.poller.shutdownPending = true → pollerEvent (.receiveReturns o b) s =
      { s with poller := { s.poller with pstate := .stopped, reports := s.poller.reports ++ [r],
                                         sourceHeld := false, timer := .released } })

/-- R125, R129: a tick that ends in SourceUnavailable surfaces it, emits nothing, stops the Poller and releases the
handle and the timer. Nothing is said of `reports`, which R125 leaves open. -/
def Obligations.UnavailableSourceIsFatal : Prop :=
  ∀ (s : State) (b : Bool), s.poller.pstate = .polling →
    let t := pollerEvent (.receiveReturns .sourceUnavailable b) s
    t.poller.fatal = some .sourceUnavailable ∧ t.poller.pstate = .stopped ∧ t.poller.emitted = s.poller.emitted ∧
    t.poller.sourceHeld = false ∧ t.poller.timer = .released ∧
    t.poller.shutdownPending = s.poller.shutdownPending ∧ t.config = s.config ∧ t.responses = s.responses ∧
    t.inputs = s.inputs

/-- R130: surfacing is off by default. Where it is on, a Sink failure during the hand-off adds the report (RECEIVE_ERROR,
sink); the string still counts as emitted, once, and the tick completes as ever. That the tick's own DECODE_RENDER adds
no entry to `responses` is the model's choice (log 3). -/
def Obligations.SurfacedSinkFailureIsReported : Prop :=
  PollerConfig.default.surfaceSinkFailure = false ∧
  ∀ (s : State) (raw : List Byte) (text : DisplayString), s.poller.pstate = .polling →
    s.config.surfaceSinkFailure = true →
    exec (.decodeRender raw) s =
      .next { s with responses := s.responses ++
        [{ status := .ok, errLen := none, frameOut := none, textOut := some text }] } →
    (s.poller.shutdownPending = false → pollerEvent (.receiveReturns (.bytes raw) true) s =
      { s with poller := { s.poller with pstate := .waiting, emitted := s.poller.emitted ++ [text],
                                         reports := s.poller.reports ++ [.receiveError .sink] } }) ∧
    (s.poller.shutdownPending = true → pollerEvent (.receiveReturns (.bytes raw) true) s =
      { s with poller := { s.poller with pstate := .stopped, emitted := s.poller.emitted ++ [text],
                                         reports := s.poller.reports ++ [.receiveError .sink],
                                         sourceHeld := false, timer := .released } })

/-- R128: a shutdown in Idle or Waiting stops the Poller at once and releases; in Polling it only becomes pending, the tick
in flight finishes, its emission included if it succeeds, and only then the Poller stops; in Stopped it has no effect. -/
def Obligations.ShutdownWaitsForTheTickInFlight : Prop :=
  ∀ s : State,
    (s.poller.pstate = .idle ∨ s.poller.pstate = .waiting → pollerEvent .shutdown s =
      { s with poller := { s.poller with pstate := .stopped, sourceHeld := false, timer := .released } }) ∧
    (s.poller.pstate = .polling →
      pollerEvent .shutdown s = { s with poller := { s.poller with shutdownPending := true } } ∧
      ∀ (o : ReceiveOutcome) (b : Bool),
        let t := pollerEvent (.receiveReturns o b) (pollerEvent .shutdown s)
        t.poller.pstate = .stopped ∧ t.poller.emitted = s.poller.emitted ++ (tickEmission o).toList) ∧
    (s.poller.pstate = .stopped → pollerEvent .shutdown s = s)

/-- R128, R123, D14: a tick in flight when the shutdown comes still emits its text, and the Poller then stops and releases
the handle, with any number of fires in between. -/
def Obligations.TickInFlightAtShutdownStillEmits : Prop :=
  ∀ (s : State) (raw : List Byte) (text : DisplayString) (b : Bool) (k : Nat),
    s.poller.pstate = .polling → tickEmission (.bytes raw) = some text →
    s.inputs = .event .shutdown :: List.replicate k (.event .fire) ++ [.event (.receiveReturns (.bytes raw) b)] →
    ∃ t : State, runSteps (k + 2) s = .next t ∧ t.poller.pstate = .stopped ∧
      t.poller.emitted = s.poller.emitted ++ [text] ∧ t.poller.sourceHeld = false

/-- R129: every entry into Stopped, whatever the event, releases the handle and the timer. -/
def Obligations.EnteringStoppedReleasesTheSource : Prop :=
  ∀ (s t : State), s.poller.pstate ≠ .stopped → step s = .next t → t.poller.pstate = .stopped →
    t.poller.sourceHeld = false ∧ t.poller.timer = .released

/-- R126: Stopped is absorbing. However many steps are taken from it, whatever events and requests come, the Poller's
record stays as it is, so nothing more is emitted, reported or received. -/
def Obligations.StoppedIsAbsorbing : Prop :=
  ∀ (k : Nat) (s t : State), s.poller.pstate = .stopped → runSteps k s = .next t → t.poller = s.poller

/-- R133, R127, R128: while no `receive()` returns, a Poller in Polling stays in Polling for any number of steps, whatever
fires, starts, shutdowns and requests come; nothing is emitted or reported, and a shutdown that was pending stays pending.
Reserved requests, which end a run, are left out. -/
def Obligations.PollingLastsUntilReceiveReturns : Prop :=
  ∀ (k : Nat) (s : State), s.poller.pstate = .polling →
    (∀ x ∈ s.inputs, x.isReceiveReturn = false ∧ x.isReserved = false) →
    ∃ t : State, runSteps k s = .next t ∧ t.poller.pstate = .polling ∧ t.observation = s.observation ∧
      t.poller.sourceHeld = s.poller.sourceHeld ∧
      (s.poller.shutdownPending = true → t.poller.shutdownPending = true)

/-- R135: over any sequence of ticks, the Poller emits exactly the DisplayStrings of the successful ticks, in tick order.
After a fatal tick it is stopped and the ticks that follow emit nothing; without one it is waiting again. -/
def Obligations.EmissionsAreTheSuccessfulTicksInOrder : Prop :=
  ∀ (ticks : List (ReceiveOutcome × Bool)) (s : State), s.poller.pstate = .waiting →
    s.poller.shutdownPending = false → s.inputs = ticks.flatMap (fun x => tickInputs x.1 x.2) →
    ∃ t : State, runSteps (2 * ticks.length) s = .next t ∧
      t.poller.pstate = (if ticks.any (·.1 == .sourceUnavailable) then .stopped else .waiting) ∧
      t.poller.emitted = s.poller.emitted ++
        (ticks.takeWhile (·.1 != .sourceUnavailable)).filterMap (fun x => tickEmission x.1)

/-- R113: one event adds at most one emission and at most one report, and a tick that fails emits nothing. -/
def Obligations.EventAddsAtMostOneOfEach : Prop :=
  ∀ (s : State) (e : Event),
    ((pollerEvent e s).poller.emitted = s.poller.emitted ∨
      ∃ text : DisplayString, (pollerEvent e s).poller.emitted = s.poller.emitted ++ [text]) ∧
    ((pollerEvent e s).poller.reports = s.poller.reports ∨
      ∃ r : Report, (pollerEvent e s).poller.reports = s.poller.reports ++ [r]) ∧
    ((∃ n, (pollerEvent e s).poller.reports = s.poller.reports ++ [.malformedFrame n]) →
      (pollerEvent e s).poller.emitted = s.poller.emitted)

/-- What an event of the environment leaves unchanged. The configuration is taken at construction and no event writes it
(R131, R151). That the inputs still to come stand as they are is the model's form (log 2). That the responses stand as
they are is THE MODEL'S CHOICE (log 3): a tick invokes DECODE_RENDER (R123), and the response to that invocation goes to
the Poller, without an entry in the list. -/
def Obligations.EventsOnlyMoveThePoller : Prop :=
  ∀ (s : State) (e : Event), (pollerEvent e s).config = s.config ∧ (pollerEvent e s).inputs = s.inputs ∧
    (pollerEvent e s).responses = s.responses

/-- R140, D16: a run only ever adds to what is observed of it. After any number of steps the earlier emissions and reports
stand as they were, in order, and a fatal error once set stays set. So do the earlier responses, whose list is the model's
own (log 3). -/
def Obligations.ObservationOnlyGrows : Prop :=
  ∀ (k : Nat) (s t : State), runSteps k s = .next t →
    s.poller.emitted <+: t.poller.emitted ∧ s.poller.reports <+: t.poller.reports ∧ s.responses <+: t.responses ∧
    (s.poller.fatal ≠ none → t.poller.fatal = s.poller.fatal)

/-! ### The invariant -/

/-- The invariant holds right after construction with any legal configuration, and so at reset. -/
def Obligations.InvariantHoldsAfterConstruction : Prop :=
  (∀ (c : PollerConfig) (s : State), State.construct c = .next s → Inv s) ∧ Inv State.reset

/-- Every step keeps the invariant: the handle and the timer follow the Poller's state, a shutdown waits only for a tick
in flight, a fatal error stops the Poller, everything emitted obeys the grammar, and every report and response is one
the spec allows. -/
def Obligations.EveryStepKeepsTheInvariant : Prop :=
  ∀ (s t : State), Inv s → step s = .next t → Inv t
end

