-- ==== Sys2Proof/Laws/State.lean ====
section
/-!
SUPPORT. Laws/State.lean: one lemma per field of each update, so that no proof unfolds a record update.
-/

namespace Sys2Proof.Machine

variable (s : State) (p : Poller)

@[simp] theorem State.respond_config (r : Response) : (s.respond r).config = s.config := rfl
@[simp] theorem State.respond_poller (r : Response) : (s.respond r).poller = s.poller := rfl
@[simp] theorem State.respond_inputs (r : Response) : (s.respond r).inputs = s.inputs := rfl
@[simp] theorem State.respond_responses (r : Response) : (s.respond r).responses = s.responses ++ [r] := rfl
@[simp] theorem State.respond_freeDraws (r : Response) : (s.respond r).freeDraws = s.freeDraws := rfl

@[simp] theorem State.withPoller_config : (s.withPoller p).config = s.config := rfl
@[simp] theorem State.withPoller_poller : (s.withPoller p).poller = p := rfl
@[simp] theorem State.withPoller_inputs : (s.withPoller p).inputs = s.inputs := rfl
@[simp] theorem State.withPoller_responses : (s.withPoller p).responses = s.responses := rfl
@[simp] theorem State.withPoller_freeDraws : (s.withPoller p).freeDraws = s.freeDraws := rfl

@[simp] theorem State.withInputs_config (l : List Input) : (s.withInputs l).config = s.config := rfl
@[simp] theorem State.withInputs_poller (l : List Input) : (s.withInputs l).poller = s.poller := rfl
@[simp] theorem State.withInputs_inputs (l : List Input) : (s.withInputs l).inputs = l := rfl
@[simp] theorem State.withInputs_responses (l : List Input) : (s.withInputs l).responses = s.responses := rfl
@[simp] theorem State.withInputs_freeDraws (l : List Input) : (s.withInputs l).freeDraws = s.freeDraws := rfl

@[simp] theorem State.constructed_config (c : PollerConfig) : (State.constructed c).config = c := rfl
@[simp] theorem State.constructed_poller (c : PollerConfig) : (State.constructed c).poller = Poller.constructed := rfl
@[simp] theorem State.constructed_inputs (c : PollerConfig) : (State.constructed c).inputs = [] := rfl
@[simp] theorem State.constructed_responses (c : PollerConfig) : (State.constructed c).responses = [] := rfl

@[simp] theorem Poller.stop_pstate : p.stop.pstate = .stopped := rfl
@[simp] theorem Poller.stop_sourceHeld : p.stop.sourceHeld = false := rfl
@[simp] theorem Poller.stop_timer : p.stop.timer = .released := rfl
@[simp] theorem Poller.stop_emitted : p.stop.emitted = p.emitted := rfl
@[simp] theorem Poller.stop_reports : p.stop.reports = p.reports := rfl
@[simp] theorem Poller.stop_fatal : p.stop.fatal = p.fatal := rfl
@[simp] theorem Poller.stop_shutdownPending : p.stop.shutdownPending = p.shutdownPending := rfl

@[simp] theorem Poller.emit_emitted (t : DisplayString) : (p.emit t).emitted = p.emitted ++ [t] := rfl
@[simp] theorem Poller.emit_reports (t : DisplayString) : (p.emit t).reports = p.reports := rfl
@[simp] theorem Poller.emit_pstate (t : DisplayString) : (p.emit t).pstate = p.pstate := rfl
@[simp] theorem Poller.emit_fatal (t : DisplayString) : (p.emit t).fatal = p.fatal := rfl
@[simp] theorem Poller.emit_sourceHeld (t : DisplayString) : (p.emit t).sourceHeld = p.sourceHeld := rfl
@[simp] theorem Poller.emit_timer (t : DisplayString) : (p.emit t).timer = p.timer := rfl
@[simp] theorem Poller.emit_shutdownPending (t : DisplayString) :
    (p.emit t).shutdownPending = p.shutdownPending := rfl

@[simp] theorem Poller.report_reports (r : Report) : (p.report r).reports = p.reports ++ [r] := rfl
@[simp] theorem Poller.report_emitted (r : Report) : (p.report r).emitted = p.emitted := rfl
@[simp] theorem Poller.report_pstate (r : Report) : (p.report r).pstate = p.pstate := rfl
@[simp] theorem Poller.report_fatal (r : Report) : (p.report r).fatal = p.fatal := rfl
@[simp] theorem Poller.report_sourceHeld (r : Report) : (p.report r).sourceHeld = p.sourceHeld := rfl
@[simp] theorem Poller.report_timer (r : Report) : (p.report r).timer = p.timer := rfl
@[simp] theorem Poller.report_shutdownPending (r : Report) :
    (p.report r).shutdownPending = p.shutdownPending := rfl

@[simp] theorem Poller.fail_pstate (b : Bool) : (p.fail b).pstate = .stopped := rfl
@[simp] theorem Poller.fail_fatal (b : Bool) : (p.fail b).fatal = some .sourceUnavailable := rfl
@[simp] theorem Poller.fail_sourceHeld (b : Bool) : (p.fail b).sourceHeld = false := rfl
@[simp] theorem Poller.fail_timer (b : Bool) : (p.fail b).timer = .released := rfl
@[simp] theorem Poller.fail_emitted (b : Bool) : (p.fail b).emitted = p.emitted := rfl
@[simp] theorem Poller.fail_shutdownPending (b : Bool) : (p.fail b).shutdownPending = p.shutdownPending := rfl
@[simp] theorem Poller.fail_reports (b : Bool) :
    (p.fail b).reports = bif b then p.reports ++ [.sourceUnavailable] else p.reports := by
  cases b <;> rfl

/-- A hand-off appends the string whatever the Sink does (R130). -/
@[simp] theorem Poller.handOff_emitted (b c : Bool) (t : DisplayString) :
    (p.handOff b c t).emitted = p.emitted ++ [t] := by
  unfold Poller.handOff; split <;> rfl

/-- A hand-off reports exactly a Sink failure that is surfaced (R119, R130). -/
@[simp] theorem Poller.handOff_reports (b c : Bool) (t : DisplayString) :
    (p.handOff b c t).reports = bif b && c then p.reports ++ [.receiveError .sink] else p.reports := by
  cases b <;> cases c <;> rfl

/-- A hand-off whose Sink failure is not surfaced, or that does not fail, only emits (R119). -/
theorem Poller.handOff_quiet {b c : Bool} (h : b = false ∨ c = false) (t : DisplayString) :
    p.handOff b c t = p.emit t := by
  cases b <;> cases c <;> simp_all [Poller.handOff]

/-- A hand-off whose Sink failure is surfaced emits and reports (R130). -/
theorem Poller.handOff_surfaced (t : DisplayString) :
    p.handOff true true t = (p.emit t).report (.receiveError .sink) := rfl

@[simp] theorem Poller.handOff_pstate (b c : Bool) (t : DisplayString) : (p.handOff b c t).pstate = p.pstate := by
  unfold Poller.handOff; split <;> rfl
@[simp] theorem Poller.handOff_fatal (b c : Bool) (t : DisplayString) : (p.handOff b c t).fatal = p.fatal := by
  unfold Poller.handOff; split <;> rfl
@[simp] theorem Poller.handOff_sourceHeld (b c : Bool) (t : DisplayString) :
    (p.handOff b c t).sourceHeld = p.sourceHeld := by
  unfold Poller.handOff; split <;> rfl
@[simp] theorem Poller.handOff_timer (b c : Bool) (t : DisplayString) : (p.handOff b c t).timer = p.timer := by
  unfold Poller.handOff; split <;> rfl
@[simp] theorem Poller.handOff_shutdownPending (b c : Bool) (t : DisplayString) :
    (p.handOff b c t).shutdownPending = p.shutdownPending := by
  unfold Poller.handOff; split <;> rfl

/-- A tick completes to Stopped when a shutdown is pending (R123, R124). -/
theorem Poller.completeTick_of_pending {p : Poller} (h : p.shutdownPending = true) : p.completeTick = p.stop :=
  if_pos h

/-- A tick completes to Waiting when no shutdown is pending (R123, R124). -/
theorem Poller.completeTick_of_not_pending {p : Poller} (h : p.shutdownPending = false) :
    p.completeTick = { p with pstate := .waiting } := by
  unfold Poller.completeTick; simp [h]

@[simp] theorem Poller.completeTick_pstate :
    p.completeTick.pstate = bif p.shutdownPending then .stopped else .waiting := by
  unfold Poller.completeTick; cases p.shutdownPending <;> rfl
@[simp] theorem Poller.completeTick_sourceHeld :
    p.completeTick.sourceHeld = bif p.shutdownPending then false else p.sourceHeld := by
  unfold Poller.completeTick; cases p.shutdownPending <;> rfl
@[simp] theorem Poller.completeTick_timer :
    p.completeTick.timer = bif p.shutdownPending then .released else p.timer := by
  unfold Poller.completeTick; cases p.shutdownPending <;> rfl
@[simp] theorem Poller.completeTick_emitted : p.completeTick.emitted = p.emitted := by
  unfold Poller.completeTick; split <;> rfl
@[simp] theorem Poller.completeTick_reports : p.completeTick.reports = p.reports := by
  unfold Poller.completeTick; split <;> rfl
@[simp] theorem Poller.completeTick_fatal : p.completeTick.fatal = p.fatal := by
  unfold Poller.completeTick; split <;> rfl
@[simp] theorem Poller.completeTick_shutdownPending : p.completeTick.shutdownPending = p.shutdownPending := by
  unfold Poller.completeTick; split <;> rfl

end Sys2Proof.Machine
end

