-- ==== Sys2Proof/Laws/Text.lean ====
section
/-!
SUPPORT. Laws/Text.lean: the small facts of hexDigit, hex2, payloadHex and the digit loop (R91 to R93).
-/

namespace Sys2Proof.Machine

theorem hexDigit_isHexDigit (d : Nibble) : isHexDigit (hexDigit d) = true := by
  revert d; decide

theorem hexDigit_ne_hash (d : Nibble) : hexDigit d ≠ 0x23 := by
  revert d; decide

theorem hexDigit_inj {d e : Nibble} (h : hexDigit d = hexDigit e) : d = e := by
  revert d e; decide

theorem hexDigit_eq_zero_digit {d : Nibble} : hexDigit d = 0x30 ↔ d = 0 := by
  revert d; decide

@[simp] theorem hex2_length (b : Byte) : (hex2 b).length = 2 := rfl

/-- A byte is its two nibbles, so `hex2` has one spelling per byte (R69). -/
theorem byte_eq_nibbles (b : Byte) : b = b.extractLsb' 4 4 ++ b.extractLsb' 0 4 := by
  revert b; decide

theorem hex2_inj {b c : Byte} (h : hex2 b = hex2 c) : b = c := by
  have hh := hexDigit_inj (List.cons.inj h).1
  have hl := hexDigit_inj (List.cons.inj (List.cons.inj h).2).1
  rw [byte_eq_nibbles b, byte_eq_nibbles c, hh, hl]

@[simp] theorem payloadHex_length (p : Payload) : (payloadHex p).length = 16 := rfl

@[simp] theorem Payload.lanes_length (p : Payload) : p.lanes.length = 8 := rfl

theorem Payload.lanes_inj {p q : Payload} (h : p.lanes = q.lanes) : p = q := by
  cases p; cases q; simp_all [Payload.lanes]

theorem payloadHex_all_isHexDigit (p : Payload) : (payloadHex p).all isHexDigit = true := by
  simp [payloadHex, Payload.lanes, hex2, hexDigit_isHexDigit]

theorem hash_not_mem_payloadHex (p : Payload) : (0x23 : Byte) ∉ payloadHex p := by
  intro h
  have := List.all_eq_true.mp (payloadHex_all_isHexDigit p) _ h
  revert this; decide

/-- The digits `idHexLoop` puts before its text: those of `v` in base 16, least significant last (R93). -/
def hexDigitsOf (fuel v : Nat) : List Nibble :=
  match fuel with
  | 0 => []
  | fuel + 1 => if v = 0 then [] else hexDigitsOf fuel (v / 16) ++ [BitVec.ofNat 4 (v % 16)]

theorem idHexLoop_eq_digits (fuel v : Nat) (s : DisplayString) :
    idHexLoop fuel v s = (hexDigitsOf fuel v).map hexDigit ++ s := by
  induction fuel generalizing v s with
  | zero => rfl
  | succ fuel ih =>
    unfold idHexLoop hexDigitsOf
    split
    · rfl
    · simp [ih]

/-- Enough fuel spells the whole number. -/
theorem hexDigitsOf_value (fuel v : Nat) (h : v < 16 ^ fuel) :
    (hexDigitsOf fuel v).foldl (fun n d => 16 * n + d.toNat) 0 = v := by
  induction fuel generalizing v with
  | zero => simp at h; simp [hexDigitsOf, h]
  | succ fuel ih =>
    unfold hexDigitsOf
    split
    · simp_all
    · rw [List.foldl_append, ih (v / 16) (by rw [Nat.pow_succ] at h; omega)]
      simp only [List.foldl_cons, List.foldl_nil, BitVec.toNat_ofNat]
      omega

theorem hexDigitsOf_length_le (fuel v : Nat) : (hexDigitsOf fuel v).length ≤ fuel := by
  induction fuel generalizing v with
  | zero => simp [hexDigitsOf]
  | succ fuel ih =>
    unfold hexDigitsOf
    split
    · simp
    · simpa using ih (v / 16)

/-- A nonzero number's spelling does not begin with the digit 0. -/
theorem hexDigitsOf_head (fuel v : Nat) (hv : v ≠ 0) (h : v < 16 ^ fuel) :
    ∃ d ds, hexDigitsOf fuel v = d :: ds ∧ d ≠ 0 := by
  induction fuel generalizing v with
  | zero => simp at h; exact absurd h hv
  | succ fuel ih =>
    unfold hexDigitsOf
    rw [if_neg hv]
    by_cases hq : v / 16 = 0
    · refine ⟨BitVec.ofNat 4 (v % 16), [], ?_, ?_⟩
      · rw [hq]; cases fuel <;> simp [hexDigitsOf]
      · intro hz
        have := congrArg BitVec.toNat hz
        simp at this
        omega
    · obtain ⟨d, ds, hd, hne⟩ := ih (v / 16) hq (by rw [Nat.pow_succ] at h; omega)
      exact ⟨d, ds ++ [BitVec.ofNat 4 (v % 16)], by rw [hd]; rfl, hne⟩

end Sys2Proof.Machine
end

