-- ==== Sys2Proof/Laws/Codec.lean ====
section
/-!
SUPPORT. Laws/Codec.lean: one lemma per block operation, saying all it does (R80, R90, R100).
-/

namespace Sys2Proof.Machine

/-- A list of the RawFrame length, byte by byte. -/
theorem eq_sixteen_of_length {raw : List Byte} (h : raw.length = 16) :
    ∃ b0 b1 b2 b3 b4 b5 b6 b7 b8 b9 b10 b11 b12 b13 b14 b15 : Byte,
      raw = [b0, b1, b2, b3, b4, b5, b6, b7, b8, b9, b10, b11, b12, b13, b14, b15] := by
  match raw, h with
  | [b0, b1, b2, b3, b4, b5, b6, b7, b8, b9, b10, b11, b12, b13, b14, b15], _ =>
    exact ⟨b0, b1, b2, b3, b4, b5, b6, b7, b8, b9, b10, b11, b12, b13, b14, b15, rfl⟩

theorem decodeOp_sixteen (b0 b1 b2 b3 b4 b5 b6 b7 b8 b9 b10 b11 b12 b13 b14 b15 : Byte) :
    decodeOp [b0, b1, b2, b3, b4, b5, b6, b7, b8, b9, b10, b11, b12, b13, b14, b15] =
      .ok { identifier := assembleIdentifier b0 b1 b2 b3, payload := ⟨b8, b9, b10, b11, b12, b13, b14, b15⟩ } := rfl

theorem decodeOp_off_sixteen {raw : List Byte} (h : raw.length ≠ 16) :
    decodeOp raw = .error (.malformedFrame raw.length) := dif_neg h

/-- All DECODE can do: a frame on 16 bytes, MalformedFrame with the length on anything else. -/
theorem decodeOp_cases (raw : List Byte) :
    (raw.length = 16 ∧ ∃ f, decodeOp raw = .ok f) ∨
    (raw.length ≠ 16 ∧ decodeOp raw = .error (.malformedFrame raw.length)) := by
  by_cases h : raw.length = 16
  · exact .inl ⟨h, _, dif_pos h⟩
  · exact .inr ⟨h, decodeOp_off_sixteen h⟩

theorem decodeRenderOp_of_ok {raw : List Byte} {f : CanFrame} (h : decodeOp raw = .ok f) :
    decodeRenderOp raw = .ok (displayString f) := by
  unfold decodeRenderOp; rw [h]; rfl

theorem decodeRenderOp_off_sixteen {raw : List Byte} (h : raw.length ≠ 16) :
    decodeRenderOp raw = .error (.malformedFrame raw.length) := by
  unfold decodeRenderOp; rw [decodeOp_off_sixteen h]; rfl

/-- All DECODE_RENDER can do. -/
theorem decodeRenderOp_cases (raw : List Byte) :
    (raw.length = 16 ∧ ∃ f, decodeOp raw = .ok f ∧ decodeRenderOp raw = .ok (displayString f)) ∨
    (raw.length ≠ 16 ∧ decodeRenderOp raw = .error (.malformedFrame raw.length)) := by
  obtain ⟨h, f, hf⟩ | ⟨h, -⟩ := decodeOp_cases raw
  · exact .inl ⟨h, f, hf, decodeRenderOp_of_ok hf⟩
  · exact .inr ⟨h, decodeRenderOp_off_sixteen h⟩

@[simp] theorem frameResponse_ok (f : CanFrame) :
    frameResponse (.ok f) = { status := .ok, errLen := none, frameOut := some f, textOut := none } := rfl

@[simp] theorem frameResponse_error (n : Nat) : frameResponse (.error (.malformedFrame n)) =
    { status := .malformedFrame, errLen := some n, frameOut := none, textOut := none } := rfl

@[simp] theorem textResponse_ok (t : DisplayString) :
    textResponse (.ok t) = { status := .ok, errLen := none, frameOut := none, textOut := some t } := rfl

@[simp] theorem textResponse_error (n : Nat) : textResponse (.error (.malformedFrame n)) =
    { status := .malformedFrame, errLen := some n, frameOut := none, textOut := none } := rfl

theorem exec_decode (raw : List Byte) (s : State) :
    exec (.decode raw) s = .next (s.respond (frameResponse (decodeOp raw))) := rfl

theorem exec_render (f : CanFrame) (s : State) :
    exec (.render f) s = .next (s.respond (textResponse (.ok (displayString f)))) := rfl

theorem exec_decodeRender (raw : List Byte) (s : State) :
    exec (.decodeRender raw) s = .next (s.respond (textResponse (decodeRenderOp raw))) := rfl

theorem exec_reserved (s : State) : exec .reserved s = .refused .reservedSelector := rfl

/-- The response an instruction gives, if it gives one. -/
def responseOf : Instr → Option Response
  | .decode raw => some (frameResponse (decodeOp raw))
  | .render f => some (textResponse (.ok (displayString f)))
  | .decodeRender raw => some (textResponse (decodeRenderOp raw))
  | .reserved => none

/-- All `exec` can do: answer with a response that is a function of the instruction, or refuse the reserved row. -/
theorem exec_cases (i : Instr) (s : State) :
    (∃ r, responseOf i = some r ∧ exec i s = .next (s.respond r)) ∨
    (i = .reserved ∧ exec i s = .refused .reservedSelector) := by
  cases i with
  | decode raw => exact .inl ⟨_, rfl, rfl⟩
  | render f => exact .inl ⟨_, rfl, rfl⟩
  | decodeRender raw => exact .inl ⟨_, rfl, rfl⟩
  | reserved => exact .inr ⟨rfl, rfl⟩

/-- An instruction that has a response gives it in every state. -/
theorem exec_of_responseOf {i : Instr} {r : Response} (h : responseOf i = some r) (s : State) :
    exec i s = .next (s.respond r) := by
  cases i <;> cases h <;> rfl

end Sys2Proof.Machine
end

