-- ==== Sys2Proof/Laws/Environment.lean ====
section
/-!
SUPPORT. Laws/Environment.lean: what each event can do, said once (R120 to R130).
-/

namespace Sys2Proof.Machine

theorem tickBytes_of_ok {raw : List Byte} {text : DisplayString} (h : decodeRenderOp raw = .ok text) (b : Bool)
    (s : State) : tickBytes raw b s =
      s.withPoller (s.poller.handOff s.config.surfaceSinkFailure b text).completeTick := by
  unfold tickBytes; rw [h]

theorem tickBytes_off_sixteen {raw : List Byte} (h : raw.length ≠ 16) (b : Bool) (s : State) :
    tickBytes raw b s = s.withPoller (s.poller.report (.malformedFrame raw.length)).completeTick := by
  unfold tickBytes; rw [decodeRenderOp_off_sixteen h]

/-- All a tick in flight can do when its `receive()` returns. -/
theorem tick_cases (o : ReceiveOutcome) (b : Bool) (s : State) :
    (∃ raw f, o = .bytes raw ∧ raw.length = 16 ∧ decodeOp raw = .ok f ∧ tick o b s =
      s.withPoller (s.poller.handOff s.config.surfaceSinkFailure b (displayString f)).completeTick) ∨
    (∃ raw, o = .bytes raw ∧ raw.length ≠ 16 ∧
      tick o b s = s.withPoller (s.poller.report (.malformedFrame raw.length)).completeTick) ∨
    (o = .receiveError ∧ tick o b s = s.withPoller (s.poller.report (.receiveError .source)).completeTick) ∨
    (o = .sourceUnavailable ∧ tick o b s =
      { s with poller := s.poller.fail (Config.fatalAlsoReported s.freeDraws), freeDraws := s.freeDraws + 1 }) := by
  cases o with
  | bytes raw =>
    obtain ⟨h, f, hf, ht⟩ | ⟨h, -⟩ := decodeRenderOp_cases raw
    · exact .inl ⟨raw, f, rfl, h, hf, tickBytes_of_ok ht b s⟩
    · exact .inr (.inl ⟨raw, rfl, h, tickBytes_off_sixteen h b s⟩)
  | receiveError => exact .inr (.inr (.inl ⟨rfl, rfl⟩))
  | sourceUnavailable => exact .inr (.inr (.inr ⟨rfl, rfl⟩))

/-- All an event can do: nothing, or one of the transitions of R120 from the state that has it. -/
theorem pollerEvent_cases (e : Event) (s : State) :
    pollerEvent e s = s ∨
    (s.poller.pstate = .idle ∧ e = .start ∧
      pollerEvent e s = s.withPoller { s.poller with pstate := .waiting, timer := .armed }) ∨
    (s.poller.pstate = .waiting ∧ e = .fire ∧ pollerEvent e s = s.withPoller { s.poller with pstate := .polling }) ∨
    ((s.poller.pstate = .idle ∨ s.poller.pstate = .waiting) ∧ e = .shutdown ∧
      pollerEvent e s = s.withPoller s.poller.stop) ∨
    (s.poller.pstate = .polling ∧ e = .shutdown ∧
      pollerEvent e s = s.withPoller { s.poller with shutdownPending := true }) ∨
    (∃ o b, s.poller.pstate = .polling ∧ e = .receiveReturns o b ∧ pollerEvent e s = tick o b s) := by
  cases e with
  | receiveReturns o b =>
    cases h : s.poller.pstate with
    | polling => exact .inr (.inr (.inr (.inr (.inr ⟨o, b, rfl, rfl, by simp [pollerEvent, onReceiveReturns, h]⟩))))
    | idle | waiting | stopped => exact .inl (by simp [pollerEvent, onReceiveReturns, h])
  | start | fire | shutdown =>
    cases h : s.poller.pstate <;> simp [pollerEvent, onStart, onFire, onShutdown, h]

theorem pollerEvent_stopped {s : State} (h : s.poller.pstate = .stopped) (e : Event) : pollerEvent e s = s := by
  cases e <;> simp [pollerEvent, onStart, onFire, onShutdown, onReceiveReturns, h]

theorem pollerEvent_returns_polling {s : State} (h : s.poller.pstate = .polling) (o : ReceiveOutcome) (b : Bool) :
    pollerEvent (.receiveReturns o b) s = tick o b s := by
  simp [pollerEvent, onReceiveReturns, h]

theorem pollerEvent_fire_waiting {s : State} (h : s.poller.pstate = .waiting) :
    pollerEvent .fire s = s.withPoller { s.poller with pstate := .polling } := by
  simp [pollerEvent, onFire, h]

end Sys2Proof.Machine
end

