-- ==== Sys2Proof/Laws/PerInstr.lean ====
section
/-!
SUPPORT. Laws/PerInstr.lean: the per-instruction families named in LAWS.json.
-/

namespace Sys2Proof.Laws.EncodedSelector

/-- An instruction's request and its line carry the same selector, and the request decodes to the instruction (R70). -/
def Statement (i : Instr) : Prop :=
  (encode i).op = (encodeLine i).op ∧ Sys2Proof.decode (encode i) = i

theorem decode (raw : List Byte) : Statement (.decode raw) := ⟨rfl, rfl⟩

theorem render (frame : CanFrame) : Statement (.render frame) := ⟨rfl, rfl⟩

theorem decodeRender (raw : List Byte) : Statement (.decodeRender raw) := ⟨rfl, rfl⟩

theorem reserved : Statement .reserved := ⟨rfl, rfl⟩

end Sys2Proof.Laws.EncodedSelector
end

