-- ==== Sys2Proof/Laws/Step.lean ====
section
/-!
SUPPORT. Laws/Step.lean: what a step can do, said once, and the runs it makes.
-/

namespace Sys2Proof.Machine

theorem step_of_nil {s : State} (h : s.inputs = []) : step s = .next s := by
  unfold step; rw [h]

theorem step_of_request {s : State} {r : Request} {rest : List Input} (h : s.inputs = .request r :: rest) :
    step s = exec (decode r) (s.withInputs rest) := by
  unfold step; rw [h]

theorem step_of_event {s : State} {e : Event} {rest : List Input} (h : s.inputs = .event e :: rest) :
    step s = .next (pollerEvent e (s.withInputs rest)) := by
  unfold step; rw [h]

/-- All a step that answers a next state can have done. -/
theorem step_next_cases {s t : State} (h : step s = .next t) :
    (s.inputs = [] ∧ t = s) ∨
    (∃ r rest out, s.inputs = .request r :: rest ∧ responseOf (decode r) = some out ∧
      t = (s.withInputs rest).respond out) ∨
    (∃ e rest, s.inputs = .event e :: rest ∧ t = pollerEvent e (s.withInputs rest)) := by
  match hin : s.inputs with
  | [] =>
    rw [step_of_nil hin] at h
    exact .inl ⟨rfl, (Host.Outcome.next.inj h).symm⟩
  | .request r :: rest =>
    rw [step_of_request hin] at h
    obtain ⟨out, hout, hexec⟩ | ⟨-, hexec⟩ := exec_cases (decode r) (s.withInputs rest)
    · rw [hexec] at h
      exact .inr (.inl ⟨r, rest, out, rfl, hout, (Host.Outcome.next.inj h).symm⟩)
    · rw [hexec] at h; cases h
  | .event e :: rest =>
    rw [step_of_event hin] at h
    exact .inr (.inr ⟨e, rest, rfl, (Host.Outcome.next.inj h).symm⟩)

theorem runSteps_zero (s : State) : runSteps 0 s = .next s := rfl

theorem runSteps_succ {k : Nat} {s s' : State} (h : step s = .next s') : runSteps (k + 1) s = runSteps k s' := by
  have hc : Sys2Proof.core.step s = .next s' := h
  simp only [runSteps, Host.Core.run, hc]
  rfl

/-- The first step of a run that answers a next state. -/
theorem runSteps_succ_next {k : Nat} {s t : State} (h : runSteps (k + 1) s = .next t) :
    ∃ s', step s = .next s' ∧ runSteps k s' = .next t := by
  match hs : step s with
  | .next s' => exact ⟨s', rfl, by rw [runSteps_succ hs] at h; exact h⟩
  | .refused r =>
    have hc : Sys2Proof.core.step s = .refused r := hs
    simp only [runSteps, Host.Core.run, hc] at h
    cases h

end Sys2Proof.Machine
end

