-- ==== Sys2Proof/Tests/Slice0.lean ====
section
/-!
SUPPORT. Tests/Slice0.lean: tests whose expected values come from spec/95_test_vectors.md and the rules, and one witness
for every statement that has hypotheses.
-/

namespace Sys2Proof.Tests

open Sys2Proof.Machine

/-! ### Helpers -/

/-- The bytes of an ASCII text (R67). -/
def ascii (t : String) : DisplayString :=
  t.toList.map fun c => BitVec.ofNat 8 c.toNat

/-- The next state of an outcome, if it has one. -/
def stateOf (o : Host.Outcome State Fault Refusal) : Option State :=
  match o with
  | .next s => some s
  | .fault _ => none
  | .refused _ => none

/-- The refusal of an outcome, if it is one. -/
def refusalOf (o : Host.Outcome State Fault Refusal) : Option Refusal :=
  match o with
  | .next _ => none
  | .fault _ => none
  | .refused r => some r

/-- The responses an outcome's state holds. -/
def responsesOf (o : Host.Outcome State Fault Refusal) : List Response :=
  match o with
  | .next s => s.responses
  | .fault _ => []
  | .refused _ => []

def okFrame (f : CanFrame) : Response := { status := .ok, errLen := none, frameOut := some f, textOut := none }
def okText (t : DisplayString) : Response := { status := .ok, errLen := none, frameOut := none, textOut := some t }
def malformed (n : Nat) : Response :=
  { status := .malformedFrame, errLen := some n, frameOut := none, textOut := none }

/-- A started or stopped machine: the Poller in `p` with the handle and timer that state has. -/
def machineIn (p : PState) (pending surface : Bool) (inputs : List Input) : State :=
  { config := { PollerConfig.default with surfaceSinkFailure := surface }
    poller := { Poller.constructed with
      pstate := p, shutdownPending := pending, sourceHeld := p != .stopped, timer := timerIn p }
    inputs := inputs
    responses := []
    freeDraws := 0 }

/-- V1 of section 2.1. -/
def v1 : List Byte := [0x04, 0, 0, 0, 0, 0, 0, 0, 0x01, 0x02, 0x03, 0x04, 0x05, 0x06, 0x07, 0x08]

/-- V6 of section 2.1: bit 31 set, a gap that is not zero. -/
def v6 : List Byte := [0x23, 0x01, 0x00, 0x80, 0x08, 0, 0, 0, 0xDE, 0xAD, 0xBE, 0xEF, 0x00, 0xC0, 0xFF, 0xEE]

/-- M4 of section 2.2: the 12 bytes of the "4 + 8" reading. -/
def m4 : List Byte := [0x04, 0, 0, 0, 0x01, 0x02, 0x03, 0x04, 0x05, 0x06, 0x07, 0x08]

def frame1 : CanFrame := { identifier := 0x00000123, payload := ⟨0x11, 0x22, 0x33, 0x44, 0x55, 0x66, 0x77, 0x88⟩ }

/-! ### WellFormed: an ill-formed term for each check -/

theorem test_reserved_is_ill_formed : Instr.wf .reserved = false := by decide

/-- M4, M5, M6: lengths 12, 15 and 17 are no RawFrame. -/
theorem test_wrong_lengths_are_no_raw_frame :
    rawFrameWf m4 = false ∧ rawFrameWf (List.replicate 15 0) = false ∧ rawFrameWf (v1 ++ [0]) = false := by decide

theorem test_zero_period_is_ill_formed :
    PollerConfig.wf { PollerConfig.default with pollPeriodMs := 0 } = false := by decide

/-- R66: no lowercase, no leading zero, no empty identifier, no nine digits, sixteen payload digits, one `#`. -/
theorem test_ill_formed_texts :
    isDisplayString (ascii "4#010203040506070a") = false ∧ isDisplayString (ascii "04#0102030405060708") = false ∧
    isDisplayString (ascii "#0102030405060708") = false ∧ isDisplayString (ascii "123456789#0102030405060708") = false ∧
    isDisplayString (ascii "4#010203040506070") = false ∧ isDisplayString (ascii "40102030405060708") = false ∧
    isDisplayString (ascii "4#010203040506#708") = false := by decide

theorem test_well_formed_text : isDisplayString (ascii "4#0102030405060708") = true := by decide

/-! ### Decoding: words written out from the table of R70 -/

theorem test_selector_00_is_decode : decode { op := 0b00#2, raw := v1, frame := frame1 } = .decode v1 := by decide
theorem test_selector_01_is_render : decode { op := 0b01#2, raw := v1, frame := frame1 } = .render frame1 := by decide
theorem test_selector_10_is_decodeRender : decode { op := 0b10#2, raw := v1, frame := frame1 } = .decodeRender v1 := by
  decide
theorem test_selector_11_is_reserved : decode { op := 0b11#2, raw := v1, frame := frame1 } = .reserved := by decide

/-- The four rows of the opcode table, numbered as it numbers them, operand bytes zero. -/
theorem test_table_words :
    decodeTableWord 8 0 = some (.decode (List.replicate 16 0)) ∧ decodeTableWord 8 1 = some (.render zeroFrame) ∧
    decodeTableWord 8 2 = some (.decodeRender (List.replicate 16 0)) ∧ decodeTableWord 8 3 = some .reserved := by decide

/-- Program P1, line 2: selector 01, identifier 0x00000123, payload 1122334455667788. -/
theorem test_render_line :
    decodeLine { op := 0b01, operands := [0x00, 0x00, 0x01, 0x23, 0x11, 0x22, 0x33, 0x44, 0x55, 0x66, 0x77, 0x88] } =
      .ok (.render frame1) := by decide

theorem test_short_render_line_refused :
    decodeLine { op := 0b01, operands := List.replicate 11 0 } = .error (.frameOperandLength 11) := by decide

/-- A step right after reset runs the word that `withFetchWord` places. -/
theorem test_first_step_after_reset :
    responsesOf (step (State.reset.withFetchWord 8 0)) = [okFrame zeroFrame] ∧
    responsesOf (step (State.reset.withFetchWord 8 1)) = [okText (ascii "0#0000000000000000")] ∧
    responsesOf (step (State.reset.withFetchWord 8 2)) = [okText (ascii "0#0000000000000000")] ∧
    refusalOf (step (State.reset.withFetchWord 8 3)) = some .reservedSelector := by decide

/-! ### DECODE, RENDER, DECODE_RENDER, RESERVED -/

/-- V6: little-endian, bit 31 kept, the gap not shown. -/
theorem test_decode_v6 : responsesOf (exec (.decode v6) State.reset) =
    [okFrame { identifier := 0x80000123, payload := ⟨0xDE, 0xAD, 0xBE, 0xEF, 0x00, 0xC0, 0xFF, 0xEE⟩ }] := by decide

/-- M1, M4, M6. -/
theorem test_decode_wrong_lengths :
    responsesOf (exec (.decode []) State.reset) = [malformed 0] ∧
    responsesOf (exec (.decode m4) State.reset) = [malformed 12] ∧
    responsesOf (exec (.decode (v1 ++ [0])) State.reset) = [malformed 17] := by decide

/-- T4: padding of payload digits; an identifier of three digits. -/
theorem test_render_t4 : responsesOf (exec (.render
    { identifier := 0x000007FF, payload := ⟨0x0A, 0, 0, 0, 0, 0, 0, 0xA0⟩ }) State.reset) =
    [okText (ascii "7FF#0A000000000000A0")] := by decide

/-- T2 and T3: the shortest and the longest identifier. -/
theorem test_render_t2_t3 :
    responsesOf (exec (.render { identifier := 0, payload := ⟨0xFF, 0xFF, 0xFF, 0xFF, 0xFF, 0xFF, 0xFF, 0xFF⟩ })
      State.reset) = [okText (ascii "0#FFFFFFFFFFFFFFFF")] ∧
    responsesOf (exec (.render { identifier := 0xFFFFFFFF, payload := zeroFrame.payload }) State.reset) =
      [okText (ascii "FFFFFFFF#0000000000000000")] := by decide

/-- V10: a big-endian reading would give `4`. -/
theorem test_decodeRender_v10 : responsesOf (exec (.decodeRender
    [0x00, 0x00, 0x00, 0x04, 0, 0, 0, 0, 0x01, 0x02, 0x03, 0x04, 0x05, 0x06, 0x07, 0x08]) State.reset) =
    [okText (ascii "4000000#0102030405060708")] := by decide

/-- M7: two frames do not decode as one. -/
theorem test_decodeRender_m7 : responsesOf (exec (.decodeRender (v1 ++ v1)) State.reset) = [malformed 32] := by decide

/-- X1. -/
theorem test_reserved_x1 :
    refusalOf (step (State.reset.withNextRequest { op := 0b11, raw := v1, frame := frame1 })) = some .reservedSelector := by
  decide

/-! ### Text -/

/-- Section 2.4. -/
theorem test_idHex_corners :
    idHex 0 = ascii "0" ∧ idHex 0x10 = ascii "10" ∧ idHex 0x800 = ascii "800" ∧ idHex 0x0ABCDEF0 = ascii "ABCDEF0" ∧
    idHex 0x80000000 = ascii "80000000" := by decide

/-- R94's closed form on section 2.4. -/
theorem test_idHexClosed_corners :
    idHexClosed 0 = ascii "0" ∧ idHexClosed 0x10 = ascii "10" ∧ idHexClosed 0x12345678 = ascii "12345678" := by decide

/-- Section 2.3: high nibble first, uppercase, both padded. -/
theorem test_hex2 : hex2 0x0A = ascii "0A" ∧ hex2 0xF9 = ascii "F9" ∧ hex2 0x00 = ascii "00" := by decide

/-! ### The Poller, section 2.7: one event each -/

/-- E1. -/
theorem test_poller_e1 : pollerEvent .start (machineIn .idle false false []) = machineIn .waiting false false [] := by
  decide

/-- E2. -/
theorem test_poller_e2 : pollerEvent .shutdown (machineIn .idle false false []) = machineIn .stopped false false [] := by
  decide

/-- E3, from the Polling state the fire leads to. -/
theorem test_poller_e3 :
    (pollerEvent (.receiveReturns (.bytes v1) false) (machineIn .polling false false [])).poller =
      { (machineIn .waiting false false []).poller with emitted := [ascii "4#0102030405060708"] } := by decide

/-- E4. -/
theorem test_poller_e4 :
    (pollerEvent (.receiveReturns .receiveError false) (machineIn .polling false false [])).poller =
      { (machineIn .waiting false false []).poller with reports := [.receiveError .source] } := by decide

/-- E5. -/
theorem test_poller_e5 :
    (pollerEvent (.receiveReturns (.bytes m4) false) (machineIn .polling false false [])).poller =
      { (machineIn .waiting false false []).poller with reports := [.malformedFrame 12] } := by decide

/-- E6, all but the reports, which D16 leaves open. -/
theorem test_poller_e6 :
    (let t := pollerEvent (.receiveReturns .sourceUnavailable false) (machineIn .polling false false [])
     t.poller.pstate = .stopped ∧ t.poller.fatal = some .sourceUnavailable ∧ t.poller.sourceHeld = false ∧
       t.poller.emitted = []) := by decide

/-- E7, its first event and its second. -/
theorem test_poller_e7 :
    pollerEvent .shutdown (machineIn .polling false false []) = machineIn .polling true false [] ∧
    (pollerEvent (.receiveReturns (.bytes v1) false) (machineIn .polling true false [])).poller =
      { (machineIn .stopped true false []).poller with emitted := [ascii "4#0102030405060708"] } := by decide

/-- E8. -/
theorem test_poller_e8 :
    pollerEvent .fire (machineIn .stopped false false []) = machineIn .stopped false false [] ∧
    pollerEvent .start (machineIn .stopped false false []) = machineIn .stopped false false [] ∧
    pollerEvent .shutdown (machineIn .stopped false false []) = machineIn .stopped false false [] := by decide

/-- E9. -/
theorem test_poller_e9 : pollerEvent .fire (machineIn .polling false false []) = machineIn .polling false false [] := by
  decide

/-- E10. -/
theorem test_poller_e10 :
    (pollerEvent (.receiveReturns (.bytes v1) true) (machineIn .polling false true [])).poller =
      { (machineIn .waiting false true []).poller with
        emitted := [ascii "4#0102030405060708"], reports := [.receiveError .sink] } := by decide

/-- R131, D20. -/
theorem test_construct_refuses_zero_period :
    refusalOf (State.construct { PollerConfig.default with pollPeriodMs := 0 }) = some (.nonPositivePollPeriod 0) := by
  decide

/-! ### Witnesses: for every statement with hypotheses, inputs that meet them -/

def renderLine1 : Line :=
  { op := 0b01, operands := [0x00, 0x00, 0x01, 0x23, 0x11, 0x22, 0x33, 0x44, 0x55, 0x66, 0x77, 0x88] }

theorem witness_LineIsItsInstructionsLine :
    decodeLine renderLine1 = .ok (.render frame1) ∧ Instr.render frame1 ≠ .reserved := by decide

theorem witness_UnusedRequestFieldsHaveNoEffect :
    (let r : Request := { op := 0b00, raw := v1, frame := frame1 }
     let r' : Request := { op := 0b00, raw := v1, frame := zeroFrame }
     r.op = r'.op ∧ r.raw = r'.raw ∧ r ≠ r') ∧
    (let r : Request := { op := 0b01, raw := v1, frame := frame1 }
     let r' : Request := { op := 0b01, raw := m4, frame := frame1 }
     r.op = r'.op ∧ r.frame = r'.frame ∧ r ≠ r') := by decide

theorem witness_ReservedSelectorIsRefused : ({ op := 0b11, raw := [], frame := zeroFrame } : Request).op = 0b11 := by decide

theorem witness_StepRunsTheDecodedRequest :
    (machineIn .idle false false [.request { op := 0b10, raw := v1, frame := zeroFrame }]).inputs =
      [.request { op := 0b10, raw := v1, frame := zeroFrame }] ∧
    decode { op := 0b10, raw := v1, frame := zeroFrame } = .decodeRender v1 := by decide

theorem witness_StepRunsTheEventOrWaits :
    (machineIn .idle false false [.event .start]).inputs = [.event .start] ∧ State.reset.inputs = [] := by decide

/-- Lengths on both sides of 16, and 16. -/
theorem witness_DecodeAnswersEveryBuffer :
    (List.replicate 15 (0 : Byte)).length ≠ 16 ∧ (v1 ++ [0]).length ≠ 16 ∧ ([] : List Byte).length ≠ 16 := by decide

theorem witness_DecodeFailsExactlyOffSixteenBytes :
    (v1 ++ [0]).length ≠ 16 ∧ (v6 ++ [0]).length = (v1 ++ [0]).length ∧ v1.length = 16 := by decide

theorem witness_DecodeNeverMasksTheIdentifier : (List.replicate 12 (0 : Byte)).length = 12 := by decide

theorem witness_GapBytesNeverMatter :
    (v1.take 4).length = 4 ∧ ((v1.drop 4).take 4).length = 4 ∧ ((v6.drop 4).take 4).length = 4 ∧
    (v1.drop 8).length = 8 ∧ (v1.drop 4).take 4 ≠ (v6.drop 4).take 4 := by decide

/-- Each clause of the digits at both ends of its range. -/
theorem witness_HexDigitsAreUppercaseAscii :
    (0 : Nibble).toNat ≤ 9 ∧ (9 : Nibble).toNat ≤ 9 ∧ 10 ≤ (10 : Nibble).toNat ∧ 10 ≤ (15 : Nibble).toNat := by decide

/-- The first and the last lane. -/
theorem witness_PayloadTextIsTwoDigitsPerLane :
    frame1.payload.lanes[0]? = some 0x11 ∧ frame1.payload.lanes[7]? = some 0x88 := by decide

theorem witness_RenderedTextHasItsShape :
    frame1.payload.lanes[0]? = some 0x11 ∧ frame1.payload.lanes[7]? = some 0x88 ∧
    (displayString frame1)[3]? = some 0x23 := by decide

theorem witness_RenderIsInjective :
    exec (.render frame1) State.reset = .next (State.reset.respond (okText (ascii "123#1122334455667788"))) := by rfl

theorem witness_DecodeRenderIsDecodeThenRender : v1.length = 16 ∧ m4.length ≠ 16 := by decide

/-- Inputs that agree on the field bytes but not on the gap, and inputs that do not agree. -/
theorem witness_DecodeRenderAgreesExactlyOnTheFieldBytes :
    (v1.take 4).length = 4 ∧ ((v6.drop 4).take 4).length = 4 ∧ (v6.drop 8).length = 8 ∧ (v6.take 4).length = 4 ∧
    v1.take 4 ≠ v6.take 4 := by decide

theorem witness_BlockOperationsOnlyAnswer :
    (stateOf (exec (.decode v1) State.reset)).isSome ∧ (stateOf (exec (.render frame1) State.reset)).isSome ∧
    (stateOf (exec (.decodeRender m4) State.reset)).isSome := by decide

theorem witness_ResponsesDependOnTheRequestAlone :
    (stateOf (step (State.reset.withInputs [.request { op := 0b10, raw := v1, frame := zeroFrame }]))).isSome := by decide

theorem witness_EveryRequestOffElevenIsAnswered : ({ op := 0b10, raw := m4, frame := zeroFrame } : Request).op ≠ 0b11 := by
  decide

theorem witness_ConstructionSetsTheResetColumn :
    0 < ({ PollerConfig.default with pollPeriodMs := 1 } : PollerConfig).pollPeriodMs := by decide

theorem witness_ConstructionRefusesANonPositivePeriod :
    ({ PollerConfig.default with pollPeriodMs := 0 } : PollerConfig).pollPeriodMs ≤ 0 ∧
    ({ PollerConfig.default with pollPeriodMs := -100 } : PollerConfig).pollPeriodMs ≤ 0 := by decide

theorem witness_FailedBindShowsAtTheFirstTick : stateOf (State.construct PollerConfig.default) = some State.reset := by
  decide

theorem witness_PollerFollowsItsTransitionTable :
    (machineIn .idle false false []).poller.pstate = .idle ∧ (machineIn .waiting false false []).poller.pstate = .waiting ∧
    (machineIn .polling true false []).poller.pstate = .polling ∧
    (machineIn .stopped false false []).poller.pstate = .stopped ∧
    ReceiveOutcome.receiveError ≠ .sourceUnavailable := by decide

theorem witness_EventsWithNoRowChangeNothing :
    (machineIn .idle false false []).poller.pstate = .idle ∧ (machineIn .waiting false false []).poller.pstate ≠ .polling := by
  decide

theorem witness_StartArmsOnlyAnIdlePoller :
    (machineIn .idle false false []).poller.pstate = .idle ∧ (machineIn .polling false false []).poller.pstate ≠ .idle := by
  decide

theorem witness_TicksNeverOverlap :
    (machineIn .waiting false false []).poller.pstate = .waiting ∧
    (machineIn .polling false false []).poller.pstate = .polling := by decide

/-- Both sides of the pending shutdown, without surfacing. -/
theorem witness_SuccessfulTickEmitsItsText :
    (∀ pending : Bool, (machineIn .polling pending false []).poller.pstate = .polling ∧
      (machineIn .polling pending false []).poller.shutdownPending = pending ∧
      (machineIn .polling pending false []).config.surfaceSinkFailure = false) ∧
    stateOf (exec (.decodeRender v1) (machineIn .polling false false [])) =
      some { machineIn .polling false false [] with responses := [okText (ascii "4#0102030405060708")] } := by decide

theorem witness_LocalErrorIsReportedAndTheTickSkipped :
    ∀ pending : Bool, (machineIn .polling pending false []).poller.pstate = .polling ∧
      (machineIn .polling pending false []).poller.shutdownPending = pending ∧ m4.length ≠ 16 := by decide

theorem witness_UnavailableSourceIsFatal : (machineIn .polling false false []).poller.pstate = .polling := by decide

theorem witness_SurfacedSinkFailureIsReported :
    (∀ pending : Bool, (machineIn .polling pending true []).poller.pstate = .polling ∧
      (machineIn .polling pending true []).poller.shutdownPending = pending ∧
      (machineIn .polling pending true []).config.surfaceSinkFailure = true) ∧
    stateOf (exec (.decodeRender v1) (machineIn .polling false true [])) =
      some { machineIn .polling false true [] with responses := [okText (ascii "4#0102030405060708")] } := by decide

theorem witness_ShutdownWaitsForTheTickInFlight :
    (machineIn .idle false false []).poller.pstate = .idle ∧ (machineIn .waiting false false []).poller.pstate = .waiting ∧
    (machineIn .polling false false []).poller.pstate = .polling ∧
    (machineIn .stopped false false []).poller.pstate = .stopped := by decide

/-- Program P4 from its third step: a shutdown, one fire, the return. -/
theorem witness_TickInFlightAtShutdownStillEmits :
    (machineIn .polling false false
      [.event .shutdown, .event .fire, .event (.receiveReturns (.bytes v1) false)]).inputs =
      .event .shutdown :: List.replicate 1 (.event .fire) ++ [.event (.receiveReturns (.bytes v1) false)] ∧
    tickEmission (.bytes v1) = some (ascii "4#0102030405060708") := by decide

theorem witness_EnteringStoppedReleasesTheSource :
    (machineIn .waiting false false [.event .shutdown]).poller.pstate ≠ .stopped ∧
    stateOf (step (machineIn .waiting false false [.event .shutdown])) = some (machineIn .stopped false false []) := by
  decide

theorem witness_StoppedIsAbsorbing :
    (machineIn .stopped false false [.event .fire]).poller.pstate = .stopped ∧
    runSteps 1 (machineIn .stopped false false [.event .fire]) = .next (machineIn .stopped false false []) :=
  ⟨rfl, rfl⟩

/-- A fire, a shutdown and a request that is not reserved. -/
theorem witness_PollingLastsUntilReceiveReturns :
    (machineIn .polling true false []).poller.pstate = .polling ∧ (machineIn .polling true false []).poller.shutdownPending = true ∧
    ∀ x ∈ [Input.event .fire, .event .shutdown, .request { op := 0b10, raw := v1, frame := zeroFrame }],
      x.isReceiveReturn = false ∧ x.isReserved = false := by decide

/-- The ticks of program P2, and one that is fatal. -/
theorem witness_EmissionsAreTheSuccessfulTicksInOrder :
    (let ticks : List (ReceiveOutcome × Bool) :=
      [(.bytes v1, false), (.receiveError, false), (.bytes v6, false), (.sourceUnavailable, false), (.bytes v1, false)]
     let s := machineIn .waiting false false (ticks.flatMap fun x => tickInputs x.1 x.2)
     s.poller.pstate = .waiting ∧ s.poller.shutdownPending = false ∧ s.inputs.length = 2 * ticks.length ∧
       (ticks.takeWhile (·.1 != .sourceUnavailable)).filterMap (fun x => tickEmission x.1) =
         [ascii "4#0102030405060708", ascii "80000123#DEADBEEF00C0FFEE"]) := by decide

theorem witness_EventAddsAtMostOneOfEach :
    ∃ n, (pollerEvent (.receiveReturns (.bytes m4) false) (machineIn .polling false false [])).poller.reports =
      (machineIn .polling false false []).poller.reports ++ [.malformedFrame n] := ⟨12, by decide⟩

theorem witness_ObservationOnlyGrows :
    runSteps 1 (machineIn .waiting false false [.event .fire]) = .next (machineIn .polling false false []) := by rfl

theorem witness_InvariantHoldsAfterConstruction : stateOf (State.construct PollerConfig.default) = some State.reset := by
  decide

/-- A machine in Polling that has emitted and reported, and a tick that returns. -/
def busyMachine : State :=
  { machineIn .polling false false [.event (.receiveReturns (.bytes v6) false)] with
    poller := { (machineIn .polling false false []).poller with
      emitted := [ascii "4#0102030405060708"], reports := [.malformedFrame 12] }
    responses := [okFrame frame1, malformed 17] }

theorem witness_EveryStepKeepsTheInvariant : Inv busyMachine ∧ (stateOf (step busyMachine)).isSome :=
  ⟨⟨by decide, by decide, by decide, by decide, by decide, by decide, by decide, by decide, by decide⟩, by decide⟩

end Sys2Proof.Tests
end

section
/-!
Requests to the block: what a step that takes one does, and that its answer is a function of the request (R29).
-/

namespace Sys2Proof.Machine

/-- A request whose instruction has a response is answered with it, whatever the machine holds and whatever follows. -/
theorem step_request_of_responseOf {r : Request} {out : Response} (h : responseOf (decode r) = some out) (s : State)
    (rest : List Input) :
    step (s.withInputs (.request r :: rest)) = .next ((s.withInputs rest).respond out) := by
  rw [step_of_request (State.withInputs_inputs s _)]
  exact exec_of_responseOf h (s.withInputs rest)

/-- All a step that takes a request and answers a next state can have done: the converse of
`step_request_of_responseOf`. -/
theorem responseOf_of_step_request {s t : State} {r : Request} {rest : List Input}
    (h : step (s.withInputs (.request r :: rest)) = .next t) :
    ∃ out, responseOf (decode r) = some out ∧ t = (s.withInputs rest).respond out := by
  rw [step_of_request (State.withInputs_inputs s _)] at h
  obtain ⟨out, hout, hexec⟩ | ⟨-, hexec⟩ := exec_cases (decode r) (s.withInputs rest)
  · exact ⟨out, hout, Host.Outcome.next.inj (h.symm.trans hexec)⟩
  · exact nomatch h.symm.trans hexec

/-- Settles O24: an answered request has a `responseOf`, which names no state, so every other state answers with it
too. -/
theorem responsesDependOnTheRequestAlone : Obligations.ResponsesDependOnTheRequestAlone := by
  intro s s' rest rest' r t h
  obtain ⟨out, hout, rfl⟩ := responseOf_of_step_request h
  exact ⟨out, (s'.withInputs rest').respond out, step_request_of_responseOf hout s' rest', by simp, by simp⟩

end Sys2Proof.Machine
end

section
/-!
Selectors (R70, R71): the four words of the table, and the refusal of selector 11.
-/

namespace Sys2Proof.Machine

theorem decode_of_op_reserved {r : Request} (h : r.op = 0b11) : decode r = .reserved := by
  unfold decode; rw [h]; rfl

/-- Settles O1: `decode` reads the selector alone, and each word is a row of its table. -/
theorem selectorWordsSelectTheirRow : Obligations.SelectorWordsSelectTheirRow := by
  intro raw frame
  exact ⟨rfl, rfl, rfl, rfl⟩

/-- Settles O6: selector 11 decodes to the reserved row, which `exec` refuses in every state. -/
theorem reservedSelectorIsRefused : Obligations.ReservedSelectorIsRefused := by
  refine ⟨exec_reserved, fun s r rest h => ?_⟩
  rw [step_of_request (State.withInputs_inputs s _), decode_of_op_reserved h]
  exact exec_reserved _

end Sys2Proof.Machine
end

section
/-!
The fields of a RawFrame (R60 to R62): one frame serves a given identifier and payload, whatever the gap holds.
-/

namespace Sys2Proof.Machine

/-- The frame DECODE gives for fixed field bytes is chosen before the gap bytes are (R62, R83). -/
theorem exists_decodeOp_eq_ok_for_every_gap {ident payload : List Byte} (hi : ident.length = 4)
    (hp : payload.length = 8) :
    ∃ f : CanFrame, ∀ gap : List Byte, gap.length = 4 → decodeOp (ident ++ gap ++ payload) = .ok f :=
  match ident, payload, hi, hp with
  | [b0, b1, b2, b3], [p0, p1, p2, p3, p4, p5, p6, p7], _, _ =>
    ⟨{ identifier := assembleIdentifier b0 b1 b2 b3, payload := ⟨p0, p1, p2, p3, p4, p5, p6, p7⟩ },
      fun gap hg => match gap, hg with
        | [g0, g1, g2, g3], _ => decodeOp_sixteen b0 b1 b2 b3 g0 g1 g2 g3 p0 p1 p2 p3 p4 p5 p6 p7⟩

/-- Settles O12: DECODE gives both buffers the frame of their field bytes, so DECODE_RENDER gives both its text. -/
theorem gapBytesNeverMatter : Obligations.GapBytesNeverMatter := by
  intro s ident gap gap' payload hi hg hg' hp
  obtain ⟨f, hf⟩ := exists_decodeOp_eq_ok_for_every_gap hi hp
  refine ⟨⟨f, ?_⟩, ?_, ?_⟩
  · rw [exec_decode, hf gap hg]; rfl
  · rw [exec_decode, exec_decode, hf gap hg, hf gap' hg']
  · rw [exec_decodeRender, exec_decodeRender, decodeRenderOp_of_ok (hf gap hg), decodeRenderOp_of_ok (hf gap' hg')]

end Sys2Proof.Machine
end

section
/-!
The identifier's text (R93) as a list of digits: its length, its first digit, and that it spells one value only.
-/

namespace Sys2Proof.Machine

/-- The digits `idHex` spells, most significant first. -/
def idDigits (v : Word) : List Nibble :=
  if v = 0 then [0] else hexDigitsOf 8 v.toNat

theorem idHex_eq_map_idDigits (v : Word) : idHex v = (idDigits v).map hexDigit := by
  unfold idHex idDigits
  split
  · rfl
  · simp [idHexLoop_eq_digits]

theorem idDigits_zero : idDigits 0 = [0] := rfl

/-- The digits of a nonzero identifier begin with a nonzero one. -/
theorem idDigits_of_ne_zero {v : Word} (hv : v ≠ 0) : ∃ d ds, idDigits v = d :: ds ∧ d ≠ 0 := by
  unfold idDigits
  rw [if_neg hv]
  exact hexDigitsOf_head 8 v.toNat (BitVec.toNat_ne.mp hv) v.isLt

theorem idDigits_value (v : Word) : (idDigits v).foldl (fun n d => 16 * n + d.toNat) 0 = v.toNat := by
  unfold idDigits
  split
  case isTrue hv => rw [hv]; rfl
  case isFalse => exact hexDigitsOf_value 8 v.toNat v.isLt

theorem idDigits_inj {v w : Word} (h : idDigits v = idDigits w) : v = w :=
  BitVec.eq_of_toNat_eq (by rw [← idDigits_value v, h, idDigits_value w])

theorem idDigits_ne_nil (v : Word) : idDigits v ≠ [] := by
  by_cases hv : v = 0
  · rw [hv, idDigits_zero]; exact List.cons_ne_nil _ _
  · obtain ⟨d, ds, hd, -⟩ := idDigits_of_ne_zero hv
    rw [hd]; exact List.cons_ne_nil _ _

theorem idDigits_length_le (v : Word) : (idDigits v).length ≤ 8 := by
  unfold idDigits
  split
  · decide
  · exact hexDigitsOf_length_le 8 v.toNat

theorem idHex_length_pos (v : Word) : 1 ≤ (idHex v).length := by
  rw [idHex_eq_map_idDigits, List.length_map]
  exact List.length_pos_iff.mpr (idDigits_ne_nil v)

theorem idHex_length_le (v : Word) : (idHex v).length ≤ 8 := by
  rw [idHex_eq_map_idDigits, List.length_map]
  exact idDigits_length_le v

theorem idHex_inj {v w : Word} (h : idHex v = idHex w) : v = w := by
  rw [idHex_eq_map_idDigits, idHex_eq_map_idDigits] at h
  exact idDigits_inj (List.map_injective_iff.mpr (fun _ _ => hexDigit_inj) h)

theorem hash_not_mem_idHex (v : Word) : (0x23 : Byte) ∉ idHex v := by
  rw [idHex_eq_map_idDigits, List.mem_map]
  exact fun ⟨d, _, hd⟩ => hexDigit_ne_hash d hd

theorem isNzHexDigit_hexDigit {d : Nibble} (h : d ≠ 0) : isNzHexDigit (hexDigit d) = true := by
  have hfirst : (hexDigit d != 0x30) = true := bne_iff_ne.mpr (mt hexDigit_eq_zero_digit.mp h)
  rw [isNzHexDigit, hexDigit_isHexDigit, hfirst]; rfl

/-- The identifier's text is an `id-hex` (R66): `"0"`, or a nonzero digit and at most seven more. -/
theorem isIdHex_idHex (v : Word) : isIdHex (idHex v) = true := by
  by_cases hv : v = 0
  · rw [hv]; decide
  · obtain ⟨d, ds, hd, hne⟩ := idDigits_of_ne_zero hv
    have hlen := idDigits_length_le v
    rw [hd, List.length_cons, Nat.succ_le_succ_iff] at hlen
    rw [idHex_eq_map_idDigits, hd]
    simp [isIdHex, isNzHexDigit_hexDigit hne, hexDigit_isHexDigit, hlen]

end Sys2Proof.Machine
end

section
/-!
The payload's text (R92), two digits per lane, each at its place.
-/

namespace Sys2Proof.Machine

/-- Byte `k` of a list is spelled by characters `2k` and `2k + 1` of the text. -/
theorem getElem?_flatMap_hex2 {bytes : List Byte} {k : Nat} {b : Byte} (h : bytes[k]? = some b) :
    (bytes.flatMap hex2)[2 * k]? = some (hexDigit (b.extractLsb' 4 4)) ∧
    (bytes.flatMap hex2)[2 * k + 1]? = some (hexDigit (b.extractLsb' 0 4)) := by
  induction bytes generalizing k with
  | nil => simp at h
  | cons c cs ih =>
    cases k with
    | zero => cases h; exact ⟨rfl, rfl⟩
    | succ k => exact ih h

theorem flatMap_hex2_inj {bs cs : List Byte} (h : bs.flatMap hex2 = cs.flatMap hex2) : bs = cs := by
  induction bs generalizing cs with
  | nil =>
    cases cs with
    | nil => rfl
    | cons c cs => exact nomatch h
  | cons b bs ih =>
    cases cs with
    | nil => exact nomatch h
    | cons c cs =>
      obtain ⟨hhead, htail⟩ := List.append_inj h rfl
      rw [hex2_inj hhead, ih htail]

theorem payloadHex_inj {p q : Payload} (h : payloadHex p = payloadHex q) : p = q :=
  Payload.lanes_inj (flatMap_hex2_inj h)

theorem isPayloadHex_payloadHex (p : Payload) : isPayloadHex (payloadHex p) = true := by
  unfold isPayloadHex
  rw [payloadHex_length, payloadHex_all_isHexDigit]; rfl

end Sys2Proof.Machine
end

section
/-!
DisplayStrings (R66 to R69): their grammar, their one `#`, and that RENDER is injective.
-/

namespace Sys2Proof.Machine

theorem displayString_eq (f : CanFrame) :
    displayString f = idHex f.identifier ++ 0x23 :: payloadHex f.payload := by
  simp [displayString]

/-- The recogniser reads a text up to its first `#` as the identifier and the rest as the payload (R66, R96). -/
theorem isDisplayString_append_hash {ident : DisplayString} (h : (0x23 : Byte) ∉ ident) (payload : DisplayString) :
    isDisplayString (ident ++ 0x23 :: payload) = (isIdHex ident && isPayloadHex payload) := by
  have hident : ∀ c ∈ ident, (c != 0x23) = true := fun c hc => bne_iff_ne.mpr (ne_of_mem_of_not_mem hc h)
  have hspan : (ident ++ 0x23 :: payload).span (· != 0x23) = (ident, 0x23 :: payload) := by
    rw [List.span_eq_takeWhile_dropWhile, List.takeWhile_append_of_pos hident, List.dropWhile_append_of_pos hident]
    simp
  unfold isDisplayString
  rw [hspan]

/-- Settles O18: the text splits at its only `#`, and both parts obey their own rule of the grammar. -/
theorem renderedTextObeysTheGrammar : Obligations.RenderedTextObeysTheGrammar := by
  intro f
  rw [displayString_eq, isDisplayString_append_hash (hash_not_mem_idHex f.identifier), isIdHex_idHex,
    isPayloadHex_payloadHex]
  rfl

/-- An element that occurs only between two lists is found at the first one's length and nowhere else. -/
theorem getElem?_append_cons_eq_some_iff {α : Type} {a : α} {l r : List α} (hl : a ∉ l) (hr : a ∉ r) (j : Nat) :
    (l ++ a :: r)[j]? = some a ↔ j = l.length := by
  constructor
  · intro h
    obtain hj | hj | hj := Nat.lt_trichotomy j l.length
    · rw [List.getElem?_append_left hj] at h
      exact absurd (List.mem_of_getElem? h) hl
    · exact hj
    · obtain ⟨i, rfl⟩ := Nat.exists_eq_add_of_lt hj
      rw [List.getElem?_append_right (by omega), show l.length + i + 1 - l.length = i + 1 by omega,
        List.getElem?_cons_succ] at h
      exact absurd (List.mem_of_getElem? h) hr
  · rintro rfl
    simp

/-- The characters after the `#` are the payload's (R68). -/
theorem displayString_getElem?_after_hash (f : CanFrame) (i : Nat) :
    (displayString f)[(idHex f.identifier).length + 1 + i]? = (payloadHex f.payload)[i]? := by
  rw [displayString_eq, List.getElem?_append_right (by omega),
    show (idHex f.identifier).length + 1 + i - (idHex f.identifier).length = i + 1 by omega, List.getElem?_cons_succ]

/-- Settles O19: neither part holds a `#`, and the payload's digits stand right after the one between them. -/
theorem renderedTextHasItsShape : Obligations.RenderedTextHasItsShape := by
  intro f
  refine ⟨_, rfl, idHex_length_pos _, idHex_length_le _, ?_, fun j => ?_, fun k b hb => ?_⟩
  · simp [displayString_eq]
  · rw [displayString_eq]
    exact getElem?_append_cons_eq_some_iff (hash_not_mem_idHex _) (hash_not_mem_payloadHex _) j
  · obtain ⟨hhigh, hlow⟩ := getElem?_flatMap_hex2 hb
    constructor
    · rw [displayString_getElem?_after_hash]; exact hhigh
    · rw [show (idHex f.identifier).length + 2 + 2 * k = (idHex f.identifier).length + 1 + (2 * k + 1) by omega,
        displayString_getElem?_after_hash]
      exact hlow

/-- The payload's text has one length, so equal texts split at the same place (R69). -/
theorem displayString_inj {f g : CanFrame} (h : displayString f = displayString g) : f = g := by
  rw [displayString_eq, displayString_eq] at h
  obtain ⟨hident, hrest⟩ := List.append_inj' h (by simp)
  have hid := idHex_inj hident
  have hpay := payloadHex_inj (List.cons.inj hrest).2
  cases f; cases g
  cases hid; cases hpay; rfl

/-- A state that answers the same after two responses was given the same response. -/
theorem State.respond_inj {s : State} {r r' : Response} (h : s.respond r = s.respond r') : r = r' := by
  have hresponses := congrArg State.responses h
  simpa using hresponses

/-- Settles O20: equal next states hold equal responses, hence equal texts, and a text has one frame. -/
theorem renderIsInjective : Obligations.RenderIsInjective := by
  intro f g s t hf hg
  rw [exec_render] at hf hg
  have hresponse := State.respond_inj (Host.Outcome.next.inj (hf.trans hg.symm))
  rw [textResponse_ok, textResponse_ok] at hresponse
  exact displayString_inj (Option.some.inj (congrArg Response.textOut hresponse))

end Sys2Proof.Machine
end

section
/-!
DECODE (R80 to R82): its identifier as bytes and as a number, and what it answers on each length.
-/

namespace Sys2Proof.Machine

/-! ### The identifier -/

/-- Bit `i` of the identifier is a bit of the one byte whose place holds it: the word is its bytes written side by side,
byte 0 last (R42). -/
theorem assembleIdentifier_eq_append (b0 b1 b2 b3 : Byte) :
    assembleIdentifier b0 b1 b2 b3 = (b3 ++ b2) ++ (b1 ++ b0) := by
  refine BitVec.eq_of_getLsbD_eq fun i hi => ?_
  simp only [assembleIdentifier, BitVec.zeroExtend, BitVec.getLsbD_or, BitVec.getLsbD_shiftLeft,
    BitVec.getLsbD_setWidth, BitVec.getLsbD_append]
  obtain hbyte0 | hbyte1 | hbyte2 | hbyte3 : i < 8 ∨ (8 ≤ i ∧ i < 16) ∨ (16 ≤ i ∧ i < 24) ∨ 24 ≤ i := by omega
  · grind
  · grind
  · grind
  · grind

theorem toNat_append_eq_add {m n : Nat} (x : BitVec m) (y : BitVec n) :
    (x ++ y).toNat = 2 ^ n * x.toNat + y.toNat := by
  rw [BitVec.toNat_append, ← Nat.shiftLeft_add_eq_or_of_lt y.isLt, Nat.shiftLeft_eq, Nat.mul_comm]

theorem assembleIdentifier_toNat (b0 b1 b2 b3 : Byte) :
    (assembleIdentifier b0 b1 b2 b3).toNat =
      b0.toNat + 2 ^ 8 * b1.toNat + 2 ^ 16 * b2.toNat + 2 ^ 24 * b3.toNat := by
  rw [assembleIdentifier_eq_append, toNat_append_eq_add, toNat_append_eq_add, toNat_append_eq_add]
  omega

/-- A word is assembled from its own four bytes, so every 32-bit value is an identifier (R82). -/
theorem assembleIdentifier_extractLsb' (v : Word) :
    assembleIdentifier (v.extractLsb' 0 8) (v.extractLsb' 8 8) (v.extractLsb' 16 8) (v.extractLsb' 24 8) = v := by
  apply BitVec.eq_of_toNat_eq
  rw [assembleIdentifier_toNat]
  simp only [BitVec.extractLsb'_toNat, Nat.shiftRight_eq_div_pow]
  have hv : v.toNat < 2 ^ 32 := v.isLt
  omega

/-! ### DECODE -/

/-- The identifier of a RawFrame is assembled from its first four bytes, whatever the other twelve hold. -/
theorem exists_decodeOp_eq_ok_of_cons (b0 b1 b2 b3 : Byte) {rest : List Byte} (h : rest.length = 12) :
    ∃ p : Payload, decodeOp (b0 :: b1 :: b2 :: b3 :: rest) =
      .ok { identifier := assembleIdentifier b0 b1 b2 b3, payload := p } :=
  have hlen : (b0 :: b1 :: b2 :: b3 :: rest).length = Config.rawFrameLen := by simp [h]
  ⟨payloadOf _ hlen, dif_pos hlen⟩

theorem exec_decode_of_ok {raw : List Byte} {f : CanFrame} (h : decodeOp raw = .ok f) (s : State) :
    exec (.decode raw) s =
      .next (s.respond { status := .ok, errLen := none, frameOut := some f, textOut := none }) := by
  rw [exec_decode, h, frameResponse_ok]

theorem exec_decode_off_sixteen {raw : List Byte} (h : raw.length ≠ 16) (s : State) :
    exec (.decode raw) s =
      .next (s.respond
        { status := .malformedFrame, errLen := some raw.length, frameOut := none, textOut := none }) := by
  rw [exec_decode, decodeOp_off_sixteen h, frameResponse_error]

/-- Settles O9: 16 bytes decode byte by byte, the assembled identifier being its bytes side by side; any other length
is DECODE's one failure. -/
theorem decodeAnswersEveryBuffer : Obligations.DecodeAnswersEveryBuffer := by
  refine ⟨fun raw frame => (selectorWordsSelectTheirRow raw frame).left, ?sixteen, ?off⟩
  case sixteen =>
    intro s b0 b1 b2 b3 g0 g1 g2 g3 p0 p1 p2 p3 p4 p5 p6 p7
    rw [← assembleIdentifier_eq_append]
    exact exec_decode_of_ok (decodeOp_sixteen b0 b1 b2 b3 g0 g1 g2 g3 p0 p1 p2 p3 p4 p5 p6 p7) s
  case off => exact fun s raw h => exec_decode_off_sixteen h s

/-- Settles O10: DECODE either gives a frame on 16 bytes or fails on another length, with a response that holds that
length and nothing else of `raw`. -/
theorem decodeFailsExactlyOffSixteenBytes : Obligations.DecodeFailsExactlyOffSixteenBytes := by
  intro s raw
  obtain ⟨hlen, f, hf⟩ | ⟨hlen, -⟩ := decodeOp_cases raw
  · exact ⟨_, exec_decode_of_ok hf s, by simp [hlen], (absurd hlen ·), fun _ hne => absurd hlen hne⟩
  · refine ⟨_, exec_decode_off_sixteen hlen s, by simp [hlen], fun _ => ⟨rfl, rfl, rfl⟩, fun raw' _ hlen' => ?_⟩
    have hoff : raw'.length ≠ 16 := hlen' ▸ hlen
    rw [exec_decode_off_sixteen hoff, exec_decode_off_sixteen hlen, hlen']

/-- Settles O11: the identifier is assembled from bytes 0 to 3 with no bit lost, so the buffer that starts with the four
bytes of a value decodes to that value. -/
theorem decodeNeverMasksTheIdentifier : Obligations.DecodeNeverMasksTheIdentifier := by
  constructor
  · intro b0 b1 b2 b3 rest hrest
    obtain ⟨p, hp⟩ := exists_decodeOp_eq_ok_of_cons b0 b1 b2 b3 hrest
    exact ⟨_, exec_decode_of_ok hp, assembleIdentifier_toNat b0 b1 b2 b3⟩
  · intro v
    obtain ⟨p, hp⟩ := exists_decodeOp_eq_ok_of_cons (v.extractLsb' 0 8) (v.extractLsb' 8 8) (v.extractLsb' 16 8)
      (v.extractLsb' 24 8) (List.length_replicate (n := 12) (a := 0))
    exact ⟨_, _, assembleIdentifier_extractLsb' v, exec_decode_of_ok hp⟩

end Sys2Proof.Machine
end

section
/-!
The frame of the block's operations (R84, R97): `exec` changes nothing but the responses.
-/

namespace Sys2Proof.Machine

/-- All an `exec` that answers a next state can have done: it gave the instruction's response. -/
theorem responseOf_of_exec {i : Instr} {s t : State} (h : exec i s = .next t) :
    ∃ r, responseOf i = some r ∧ t = s.respond r := by
  obtain ⟨r, hr, hexec⟩ | ⟨-, hexec⟩ := exec_cases i s
  · exact ⟨r, hr, Host.Outcome.next.inj (h.symm.trans hexec)⟩
  · exact nomatch h.symm.trans hexec

/-- Settles O23: an instruction that is answered only adds its response, and the reserved row is not answered. -/
theorem blockOperationsOnlyAnswer : Obligations.BlockOperationsOnlyAnswer := by
  intro i s t h
  obtain ⟨r, -, rfl⟩ := responseOf_of_exec h
  exact ⟨s.respond_poller r, s.respond_config r, s.respond_inputs r, s.respond_freeDraws r, r, s.respond_responses r⟩

end Sys2Proof.Machine
end

section
/-!
The digits, the payload's text and the identifier's text (R91 to R93).
-/

namespace Sys2Proof.Machine

/-- Settles O13: the sixteen rows of `hexDigit`, one by one. -/
theorem hexDigitsAreUppercaseAscii : Obligations.HexDigitsAreUppercaseAscii := by
  unfold Obligations.HexDigitsAreUppercaseAscii
  decide

/-- Settles O14: `hex2` is its two digits, and the payload's text is `hex2` of each lane in turn. -/
theorem payloadTextIsTwoDigitsPerLane : Obligations.PayloadTextIsTwoDigitsPerLane :=
  ⟨fun _ => rfl, fun p => ⟨payloadHex_length p, fun _ _ hb => getElem?_flatMap_hex2 hb⟩⟩

theorem idDigits_head?_eq_zero_iff (v : Word) : (idDigits v).head? = some 0 ↔ v = 0 := by
  constructor
  · intro hhead
    by_contra hv
    obtain ⟨d, ds, hd, hne⟩ := idDigits_of_ne_zero hv
    rw [hd, List.head?_cons] at hhead
    exact hne (Option.some.inj hhead)
  · rintro rfl
    rfl

/-- Settles O15: the digit list is `idDigits`. -/
theorem identifierTextIsTheShortestSpelling : Obligations.IdentifierTextIsTheShortestSpelling := by
  intro v
  refine ⟨idDigits v, idHex_eq_map_idDigits v, idDigits_value v, List.length_pos_iff.mpr (idDigits_ne_nil v),
    idDigits_length_le v, idDigits_head?_eq_zero_iff v, ?_⟩
  rintro rfl
  exact idDigits_zero

end Sys2Proof.Machine
end

section
/-!
The closed form of the identifier's text (R94): the loop of R93 spells a number whose digits are given in a fixed number
of places by those digits without the leading zeros, and a word is given by its eight nibbles.
-/

namespace Sys2Proof.Machine

/-- The number a digit list spells, most significant digit first. -/
def digitsValue (ds : List Nibble) : Nat :=
  ds.foldl (fun n d => 16 * n + d.toNat) 0

@[simp] theorem digitsValue_append_singleton (ds : List Nibble) (d : Nibble) :
    digitsValue (ds ++ [d]) = 16 * digitsValue ds + d.toNat := by
  simp [digitsValue]

theorem digitsValue_lt (ds : List Nibble) : digitsValue ds < 16 ^ ds.length := by
  induction ds using List.reverseRecOn with
  | nil => decide
  | append_singleton ds d ih =>
    have hd : d.toNat < 16 := d.isLt
    rw [digitsValue_append_singleton, List.length_append, List.length_singleton, Nat.pow_succ]
    omega

theorem hexDigitsOf_zero (fuel : Nat) : hexDigitsOf fuel 0 = [] := by
  cases fuel <;> rfl

/-- One round of the loop of R93: it takes off the last digit of a number that is not 0. -/
theorem hexDigitsOf_succ_of_ne_zero {fuel v : Nat} {d : Nibble} (h : 16 * v + d.toNat ≠ 0) :
    hexDigitsOf (fuel + 1) (16 * v + d.toNat) = hexDigitsOf fuel v ++ [d] := by
  have hd : d.toNat < 16 := d.isLt
  have hdiv : (16 * v + d.toNat) / 16 = v := by omega
  have hmod : (16 * v + d.toNat) % 16 = d.toNat := by omega
  rw [hexDigitsOf, if_neg h, hdiv, hmod, BitVec.ofNat_toNat, BitVec.setWidth_eq]

/-- The loop spells the value of a digit list by that list without its leading zeros. The last digit `d` is one of them
only when every digit before it is and `d` is 0. -/
theorem hexDigitsOf_digitsValue (ds : List Nibble) :
    hexDigitsOf ds.length (digitsValue ds) = ds.dropWhile (· == 0) := by
  induction ds using List.reverseRecOn with
  | nil => rfl
  | append_singleton ds d ih =>
    rw [digitsValue_append_singleton, List.length_append, List.length_singleton, List.dropWhile_append, ← ih]
    by_cases hv : digitsValue ds = 0
    case neg =>
      obtain ⟨e, es, hes, -⟩ := hexDigitsOf_head ds.length (digitsValue ds) hv (digitsValue_lt ds)
      rw [hexDigitsOf_succ_of_ne_zero (by omega), hes]
      rfl
    case pos =>
      rw [hv]
      by_cases hd : d = 0
      · simp [hd, hexDigitsOf_zero]
      · have hne : d.toNat ≠ 0 := BitVec.toNat_ne.mp hd
        rw [hexDigitsOf_succ_of_ne_zero (by omega), hexDigitsOf_zero, List.dropWhile_cons_of_neg (by simpa using hd)]
        rfl

theorem digitsValue_nibbles (v : Word) : digitsValue (nibbles v) = v.toNat := by
  have hv : v.toNat < 2 ^ 32 := v.isLt
  simp only [digitsValue, nibbles, List.foldl_cons, List.foldl_nil, BitVec.extractLsb'_toNat,
    Nat.shiftRight_eq_div_pow]
  omega

/-- A nonzero identifier's digits are its nibbles from the highest nonzero one down. -/
theorem idDigits_eq_drop_leadingZeroNibbles {v : Word} (hv : v ≠ 0) :
    idDigits v = (nibbles v).drop (leadingZeroNibbles v) := by
  have hsplit : (nibbles v).drop (leadingZeroNibbles v) = (nibbles v).dropWhile (· == 0) := by
    have h := List.drop_left (l₁ := (nibbles v).takeWhile (· == 0)) (l₂ := (nibbles v).dropWhile (· == 0))
    rwa [List.takeWhile_append_dropWhile] at h
  rw [hsplit, ← hexDigitsOf_digitsValue, digitsValue_nibbles, idDigits, if_neg hv]
  rfl

/-- The digits of R93 are the nibbles R94 keeps. The bound 7 of R94 matters for 0 alone, whose last nibble stays. -/
theorem idDigits_eq_drop_nibbles (v : Word) : idDigits v = (nibbles v).drop (min (leadingZeroNibbles v) 7) := by
  by_cases hv : v = 0
  case pos => rw [hv]; rfl
  case neg =>
    have hdrop := idDigits_eq_drop_leadingZeroNibbles hv
    have hm : leadingZeroNibbles v ≤ 7 := by
      by_contra hm
      exact idDigits_ne_nil v (hdrop.trans (List.drop_eq_nil_of_le (Nat.not_le.mp hm)))
    rw [Nat.min_eq_left hm, hdrop]

/-- Settles O16: both texts write the same digits. -/
theorem identifierTextEqualsTheClosedForm : Obligations.IdentifierTextEqualsTheClosedForm := by
  intro v
  rw [idHex_eq_map_idDigits, idDigits_eq_drop_nibbles, idHexClosed, List.map_drop]

/-- Settles O17: RENDER answers its text, whose identifier part is the closed form. -/
theorem renderAnswersEveryFrame : Obligations.RenderAnswersEveryFrame := by
  constructor
  · intro raw frame
    obtain ⟨-, hrender, -, -⟩ := selectorWordsSelectTheirRow raw frame
    exact hrender
  · intro s f
    rw [exec_render, displayString_eq, identifierTextEqualsTheClosedForm f.identifier]
    rfl

end Sys2Proof.Machine
end

section
/-!
DECODE_RENDER (R100, R101): DECODE's frame, RENDER's text, and which bytes of the buffer the text shows.
-/

namespace Sys2Proof.Machine

theorem exec_decodeRender_of_ok {raw : List Byte} {f : CanFrame} (h : decodeOp raw = .ok f) (s : State) :
    exec (.decodeRender raw) s =
      .next (s.respond { status := .ok, errLen := none, frameOut := none, textOut := some (displayString f) }) := by
  rw [exec_decodeRender, decodeRenderOp_of_ok h, textResponse_ok]

theorem exec_decodeRender_off_sixteen {raw : List Byte} (h : raw.length ≠ 16) (s : State) :
    exec (.decodeRender raw) s =
      .next (s.respond
        { status := .malformedFrame, errLen := some raw.length, frameOut := none, textOut := none }) := by
  rw [exec_decodeRender, decodeRenderOp_off_sixteen h, textResponse_error]

/-- Settles O21: on 16 bytes the text is that of the frame DECODE gives; on any other length DECODE_RENDER raises
DECODE's failure again. -/
theorem decodeRenderIsDecodeThenRender : Obligations.DecodeRenderIsDecodeThenRender := by
  refine ⟨fun raw frame => ?selector, fun s raw hlen => ?sixteen, fun s raw h => exec_decodeRender_off_sixteen h s⟩
  case selector =>
    obtain ⟨-, -, hdecodeRender, -⟩ := selectorWordsSelectTheirRow raw frame
    exact hdecodeRender
  case sixteen =>
    obtain ⟨-, f, hf⟩ | ⟨hoff, -⟩ := decodeOp_cases raw
    · have hanswer := exec_decodeRender_of_ok hf s
      exact ⟨f, displayString f, exec_decode_of_ok hf s, hanswer, (exec_render f s).trans hanswer.symm⟩
    · exact absurd hlen hoff

/-- The assembled identifier's own bytes, most significant first: none is lost or mixed with another (R42). -/
theorem lineIdentifierBytes_assembleIdentifier (b0 b1 b2 b3 : Byte) :
    lineIdentifierBytes (assembleIdentifier b0 b1 b2 b3) = [b3, b2, b1, b0] := by
  have h0 : b0.toNat < 2 ^ 8 := b0.isLt
  have h1 : b1.toNat < 2 ^ 8 := b1.isLt
  have h2 : b2.toNat < 2 ^ 8 := b2.isLt
  have h3 : b3.toNat < 2 ^ 8 := b3.isLt
  simp only [lineIdentifierBytes, List.cons.injEq, and_true, ← BitVec.toNat_inj, BitVec.extractLsb'_toNat,
    Nat.shiftRight_eq_div_pow, assembleIdentifier_toNat]
  omega

/-- The frame DECODE gives holds every identifier byte and every payload byte of the buffer (R46, R44). -/
theorem fieldBytes_of_decodeOp {ident gap payload : List Byte} {f : CanFrame} (hi : ident.length = 4)
    (hg : gap.length = 4) (hp : payload.length = 8) (h : decodeOp (ident ++ gap ++ payload) = .ok f) :
    ident = (lineIdentifierBytes f.identifier).reverse ∧ payload = f.payload.lanes :=
  match ident, gap, payload, hi, hg, hp with
  | [b0, b1, b2, b3], [g0, g1, g2, g3], [p0, p1, p2, p3, p4, p5, p6, p7], _, _, _ => by
    cases (decodeOp_sixteen b0 b1 b2 b3 g0 g1 g2 g3 p0 p1 p2 p3 p4 p5 p6 p7).symm.trans h
    rw [lineIdentifierBytes_assembleIdentifier]
    exact ⟨rfl, rfl⟩

/-- Settles O22: a text has one frame and a frame has one value of the field bytes; the field bytes alone choose the
frame. -/
theorem decodeRenderAgreesExactlyOnTheFieldBytes : Obligations.DecodeRenderAgreesExactlyOnTheFieldBytes := by
  intro ident gap payload ident' gap' payload' hi hg hp hi' hg' hp'
  obtain ⟨f, hf⟩ := exists_decodeOp_eq_ok_for_every_gap hi hp
  obtain ⟨f', hf'⟩ := exists_decodeOp_eq_ok_for_every_gap hi' hp'
  refine ⟨displayString f, displayString f', exec_decodeRender_of_ok (hf gap hg),
    exec_decodeRender_of_ok (hf' gap' hg'), fun htext => ?sameBytes, ?sameText⟩
  case sameBytes =>
    obtain ⟨hident, hpayload⟩ := fieldBytes_of_decodeOp hi hg hp (hf gap hg)
    obtain ⟨hident', hpayload'⟩ := fieldBytes_of_decodeOp hi' hg' hp' (hf' gap' hg')
    rw [hident, hident', hpayload, hpayload', displayString_inj htext]
    exact ⟨rfl, rfl⟩
  case sameText =>
    rintro ⟨rfl, rfl⟩
    rw [Except.ok.inj ((hf gap hg).symm.trans (hf' gap hg))]

end Sys2Proof.Machine
end

section
/-!
Requests off selector 11 (R117): each has a response, so a step that takes one answers.
-/

namespace Sys2Proof.Machine

/-- Every row of the table but the reserved one has a response. -/
theorem exists_responseOf_of_op_ne_reserved {r : Request} (h : r.op ≠ 0b11) :
    ∃ out, responseOf (decode r) = some out := by
  unfold decode
  split
  · exact ⟨_, rfl⟩
  · exact ⟨_, rfl⟩
  · exact ⟨_, rfl⟩
  · contradiction

/-- Settles O25: the selected row has a response, and a step that takes the request gives it in every state. -/
theorem everyRequestOffElevenIsAnswered : Obligations.EveryRequestOffElevenIsAnswered := by
  intro s r rest hop
  obtain ⟨out, hout⟩ := exists_responseOf_of_op_ne_reserved hop
  exact ⟨out, step_request_of_responseOf hout s rest⟩

end Sys2Proof.Machine
end

section
/-!
Construction with an illegal configuration (R131).
-/

namespace Sys2Proof.Machine

theorem construct_of_not_wf {c : PollerConfig} (h : c.wf = false) :
    State.construct c = .refused (.nonPositivePollPeriod c.pollPeriodMs) := by
  unfold State.construct; rw [h]; rfl

/-- Settles O28: a period that is not positive makes the configuration illegal, and construction refuses that. -/
theorem constructionRefusesANonPositivePeriod : Obligations.ConstructionRefusesANonPositivePeriod := by
  intro c hperiod
  exact construct_of_not_wf (decide_eq_false (not_lt.mpr hperiod))

end Sys2Proof.Machine
end

section
/-!
The events that end no tick (R121, R122, R127, R128): one equation per event and state.
-/

namespace Sys2Proof.Machine

theorem pollerEvent_start_idle {s : State} (h : s.poller.pstate = .idle) :
    pollerEvent .start s = s.withPoller { s.poller with pstate := .waiting, timer := .armed } := by
  simp [pollerEvent, onStart, h]

theorem pollerEvent_start_of_ne_idle {s : State} (h : s.poller.pstate ≠ .idle) : pollerEvent .start s = s := by
  cases hp : s.poller.pstate with
  | idle => exact absurd hp h
  | waiting | polling | stopped => simp [pollerEvent, onStart, hp]

theorem pollerEvent_fire_polling {s : State} (h : s.poller.pstate = .polling) : pollerEvent .fire s = s := by
  simp [pollerEvent, onFire, h]

theorem pollerEvent_shutdown_idle_or_waiting {s : State} (h : s.poller.pstate = .idle ∨ s.poller.pstate = .waiting) :
    pollerEvent .shutdown s = s.withPoller s.poller.stop := by
  obtain h | h := h <;> simp [pollerEvent, onShutdown, h]

/-- The state after a SHUTDOWN that has to wait for the tick in flight (R128). -/
def State.withShutdownPending (s : State) : State :=
  s.withPoller { s.poller with shutdownPending := true }

@[simp] theorem State.withShutdownPending_pstate (s : State) : s.withShutdownPending.poller.pstate = s.poller.pstate :=
  rfl
@[simp] theorem State.withShutdownPending_shutdownPending (s : State) :
    s.withShutdownPending.poller.shutdownPending = true := rfl
@[simp] theorem State.withShutdownPending_emitted (s : State) :
    s.withShutdownPending.poller.emitted = s.poller.emitted := rfl

theorem pollerEvent_shutdown_polling {s : State} (h : s.poller.pstate = .polling) :
    pollerEvent .shutdown s = s.withShutdownPending := by
  simp [pollerEvent, onShutdown, State.withShutdownPending, h]

/-- Settles O32: the two equations of START. -/
theorem startArmsOnlyAnIdlePoller : Obligations.StartArmsOnlyAnIdlePoller :=
  fun _ => ⟨pollerEvent_start_idle, pollerEvent_start_of_ne_idle⟩

/-- Settles O33: the equations of a fire in Waiting and in Polling. -/
theorem ticksNeverOverlap : Obligations.TicksNeverOverlap :=
  fun _ => ⟨pollerEvent_fire_waiting, pollerEvent_fire_polling⟩

end Sys2Proof.Machine
end

section
/-!
A tick (R123 to R125, R130): when it emits, what each outcome does to the record, and what every outcome leaves
unchanged.
-/

namespace Sys2Proof.Machine

theorem tickEmission_of_exec {raw : List Byte} {text : DisplayString} {s : State}
    (h : exec (.decodeRender raw) s =
      .next (s.respond { status := .ok, errLen := none, frameOut := none, textOut := some text })) :
    tickEmission (.bytes raw) = some text := by
  rw [exec_decodeRender] at h
  exact congrArg Response.textOut (State.respond_inj (Host.Outcome.next.inj h))

theorem tickEmission_of_ok {raw : List Byte} {text : DisplayString} (h : decodeRenderOp raw = .ok text) :
    tickEmission (.bytes raw) = some text := congrArg Except.toOption h

theorem tickEmission_off_sixteen {raw : List Byte} (h : raw.length ≠ 16) : tickEmission (.bytes raw) = none :=
  congrArg Except.toOption (decodeRenderOp_off_sixteen h)

/-- A tick that emits hands its text off and completes. -/
theorem tick_bytes_of_emission {raw : List Byte} {text : DisplayString} (h : tickEmission (.bytes raw) = some text)
    (b : Bool) (s : State) : tick (.bytes raw) b s =
      s.withPoller (s.poller.handOff s.config.surfaceSinkFailure b text).completeTick := by
  obtain ⟨-, f, -, hok⟩ | ⟨hoff, -⟩ := decodeRenderOp_cases raw
  · rw [tickEmission_of_ok hok] at h
    cases h
    exact tickBytes_of_ok hok b s
  · rw [tickEmission_off_sixteen hoff] at h
    cases h

theorem tick_unavailable (b : Bool) (s : State) : tick .sourceUnavailable b s =
    { s with poller := s.poller.fail (Config.fatalAlsoReported s.freeDraws), freeDraws := s.freeDraws + 1 } := rfl

@[simp] theorem tick_inputs (o : ReceiveOutcome) (b : Bool) (s : State) : (tick o b s).inputs = s.inputs := by
  obtain ⟨_, _, -, -, -, h⟩ | ⟨_, -, -, h⟩ | ⟨-, h⟩ | ⟨-, h⟩ := tick_cases o b s <;> rw [h] <;> rfl

@[simp] theorem tick_shutdownPending (o : ReceiveOutcome) (b : Bool) (s : State) :
    (tick o b s).poller.shutdownPending = s.poller.shutdownPending := by
  obtain ⟨_, _, -, -, -, h⟩ | ⟨_, -, -, h⟩ | ⟨-, h⟩ | ⟨-, h⟩ := tick_cases o b s <;> simp [h]

/-- A tick emits what `tickEmission` says of its outcome, and nothing else (R135). -/
@[simp] theorem tick_emitted (o : ReceiveOutcome) (b : Bool) (s : State) :
    (tick o b s).poller.emitted = s.poller.emitted ++ (tickEmission o).toList := by
  obtain ⟨raw, f, rfl, -, hf, h⟩ | ⟨raw, rfl, hoff, h⟩ | ⟨rfl, h⟩ | ⟨rfl, h⟩ := tick_cases o b s
  · simp [h, tickEmission_of_ok (decodeRenderOp_of_ok hf)]
  · simp [h, tickEmission_off_sixteen hoff]
  · simp [h, tickEmission]
  · simp [h, tickEmission]

/-- A tick that is not fatal completes, from a record whose pending shutdown is as it was (R123, R124). -/
theorem tick_of_available {o : ReceiveOutcome} (ho : o ≠ .sourceUnavailable) (b : Bool) (s : State) :
    ∃ q : Poller, q.shutdownPending = s.poller.shutdownPending ∧ tick o b s = s.withPoller q.completeTick := by
  obtain ⟨_, _, -, -, -, h⟩ | ⟨_, -, -, h⟩ | ⟨-, h⟩ | ⟨rfl, -⟩ := tick_cases o b s
  · exact ⟨_, Poller.handOff_shutdownPending _ _ _ _, h⟩
  · exact ⟨_, Poller.report_shutdownPending _ _, h⟩
  · exact ⟨_, Poller.report_shutdownPending _ _, h⟩
  · exact absurd rfl ho

theorem tick_pstate_of_available {o : ReceiveOutcome} (ho : o ≠ .sourceUnavailable) (b : Bool) (s : State) :
    (tick o b s).poller.pstate = if s.poller.shutdownPending then .stopped else .waiting := by
  obtain ⟨q, hq, h⟩ := tick_of_available ho b s
  rw [h, State.withPoller_poller, Poller.completeTick_pstate, hq, Bool.cond_eq_ite]

/-- With a shutdown pending, every outcome ends in Stopped (R128). -/
theorem tick_pstate_of_pending {s : State} (hp : s.poller.shutdownPending = true) (o : ReceiveOutcome) (b : Bool) :
    (tick o b s).poller.pstate = .stopped := by
  by_cases ho : o = .sourceUnavailable
  · rw [ho, tick_unavailable, Poller.fail_pstate]
  · rw [tick_pstate_of_available ho, if_pos hp]

theorem Poller.completeTick_releases {p : Poller} (hstop : p.completeTick.pstate = .stopped) :
    p.completeTick.sourceHeld = false ∧ p.completeTick.timer = .released := by
  cases hp : p.shutdownPending with
  | true => rw [completeTick_of_pending hp]; exact ⟨p.stop_sourceHeld, p.stop_timer⟩
  | false => rw [completeTick_of_not_pending hp] at hstop; cases hstop

/-- A tick that ends in Stopped has released the handle and the timer (R129). -/
theorem tick_releases {o : ReceiveOutcome} {b : Bool} {s : State} (hstop : (tick o b s).poller.pstate = .stopped) :
    (tick o b s).poller.sourceHeld = false ∧ (tick o b s).poller.timer = .released := by
  by_cases ho : o = .sourceUnavailable
  · rw [ho, tick_unavailable]
    exact ⟨Poller.fail_sourceHeld _ _, Poller.fail_timer _ _⟩
  · obtain ⟨q, -, h⟩ := tick_of_available ho b s
    rw [h] at hstop ⊢
    exact Poller.completeTick_releases hstop

/-- Settles O30: each clause is the equation of its event in its state. -/
theorem pollerFollowsItsTransitionTable : Obligations.PollerFollowsItsTransitionTable := by
  refine ⟨fun _ => rfl, fun s e o b => ⟨fun h => ?idle, fun h => ?waiting, fun h => ?polling, fun h => ?stopped⟩⟩
  case idle =>
    rw [pollerEvent_start_idle h, pollerEvent_shutdown_idle_or_waiting (.inl h)]
    exact ⟨rfl, rfl⟩
  case waiting =>
    rw [pollerEvent_fire_waiting h, pollerEvent_shutdown_idle_or_waiting (.inr h)]
    exact ⟨rfl, rfl⟩
  case polling =>
    rw [pollerEvent_returns_polling h, pollerEvent_returns_polling h, pollerEvent_shutdown_polling h,
      pollerEvent_fire_polling h]
    exact ⟨fun ho => tick_pstate_of_available ho b s, rfl, h, rfl, h⟩
  case stopped => rw [pollerEvent_stopped h, h]

/-- How a completed tick leaves the machine, with and without a pending shutdown (R123, R124). -/
theorem State.withPoller_completeTick (s : State) (q : Poller) :
    (q.shutdownPending = false → s.withPoller q.completeTick = { s with poller := { q with pstate := .waiting } }) ∧
    (q.shutdownPending = true → s.withPoller q.completeTick = { s with poller := q.stop }) := by
  refine ⟨fun hp => ?waits, fun hp => ?stops⟩
  case waits => rw [Poller.completeTick_of_not_pending hp]; rfl
  case stops => rw [Poller.completeTick_of_pending hp]; rfl

/-- Settles O34: a hand-off that reports nothing only emits, and then the tick completes. -/
theorem successfulTickEmitsItsText : Obligations.SuccessfulTickEmitsItsText := by
  intro s raw b text hpoll hquiet hexec
  rw [pollerEvent_returns_polling hpoll, tick_bytes_of_emission (tickEmission_of_exec hexec),
    Poller.handOff_quiet _ hquiet]
  exact s.withPoller_completeTick (s.poller.emit text)

/-- Settles O35: either local error reports itself, and then the tick completes. -/
theorem localErrorIsReportedAndTheTickSkipped : Obligations.LocalErrorIsReportedAndTheTickSkipped := by
  intro s o b r hpoll herror
  have htick : tick o b s = s.withPoller (s.poller.report r).completeTick := by
    obtain ⟨rfl, rfl⟩ | ⟨raw, rfl, hoff, rfl⟩ := herror
    · rfl
    · exact tickBytes_off_sixteen hoff b s
  rw [pollerEvent_returns_polling hpoll, htick]
  exact s.withPoller_completeTick (s.poller.report r)

/-- Settles O36: the record of a fatal tick is that of `Poller.fail`, whatever the open choice on reports is. -/
theorem unavailableSourceIsFatal : Obligations.UnavailableSourceIsFatal := by
  intro s b hpoll
  rw [pollerEvent_returns_polling hpoll, tick_unavailable]
  exact ⟨rfl, rfl, rfl, rfl, rfl, rfl, rfl, rfl, rfl⟩

/-- Settles O37: a hand-off whose failure is surfaced emits and reports, and then the tick completes. -/
theorem surfacedSinkFailureIsReported : Obligations.SurfacedSinkFailureIsReported := by
  refine ⟨rfl, fun s raw text hpoll hsurface hexec => ?_⟩
  rw [pollerEvent_returns_polling hpoll, tick_bytes_of_emission (tickEmission_of_exec hexec), hsurface,
    Poller.handOff_surfaced]
  exact s.withPoller_completeTick ((s.poller.emit text).report (.receiveError .sink))

end Sys2Proof.Machine
end

section
/-!
How much one event adds to what is observed (R113).
-/

namespace Sys2Proof.Machine

/-- A hand-off adds its text, and a report only of the Sink. -/
theorem Poller.handOff_adds (p : Poller) (surface sinkFails : Bool) (text : DisplayString) :
    (p.handOff surface sinkFails text).emitted = p.emitted ++ [text] ∧
    ((p.handOff surface sinkFails text).reports = p.reports ∨
      (p.handOff surface sinkFails text).reports = p.reports ++ [.receiveError .sink]) := by
  rw [handOff_emitted, handOff_reports]
  cases surface && sinkFails
  · exact ⟨rfl, .inl rfl⟩
  · exact ⟨rfl, .inr rfl⟩

/-- What one event can add to a record: a text with at most the report of the Sink, or no text with at most one report
(R113). -/
def Poller.AddsAtMostOne (p q : Poller) : Prop :=
  ((∃ text, q.emitted = p.emitted ++ [text]) ∧
    (q.reports = p.reports ∨ q.reports = p.reports ++ [.receiveError .sink])) ∨
  (q.emitted = p.emitted ∧ (q.reports = p.reports ∨ ∃ r, q.reports = p.reports ++ [r]))

theorem tick_addsAtMostOne (o : ReceiveOutcome) (b : Bool) (s : State) :
    s.poller.AddsAtMostOne (tick o b s).poller := by
  obtain ⟨_, f, -, -, -, h⟩ | ⟨_, -, -, h⟩ | ⟨-, h⟩ | ⟨-, h⟩ := tick_cases o b s <;> rw [h]
  · obtain ⟨hemit, hreport⟩ := s.poller.handOff_adds s.config.surfaceSinkFailure b (displayString f)
    exact .inl ⟨⟨_, (Poller.completeTick_emitted _).trans hemit⟩, by simpa using hreport⟩
  · exact .inr ⟨Poller.completeTick_emitted _, .inr ⟨_, Poller.completeTick_reports _⟩⟩
  · exact .inr ⟨Poller.completeTick_emitted _, .inr ⟨_, Poller.completeTick_reports _⟩⟩
  · refine .inr ⟨rfl, ?_⟩
    cases Config.fatalAlsoReported s.freeDraws
    · exact .inl rfl
    · exact .inr ⟨_, rfl⟩

/-- A tick is the only event that can add to the emissions or the reports; the others rewrite the rest of the record. -/
theorem pollerEvent_silent_or_tick (e : Event) (s : State) :
    (∃ p : Poller, pollerEvent e s = s.withPoller p ∧ p.emitted = s.poller.emitted ∧ p.reports = s.poller.reports) ∨
    ∃ o b, pollerEvent e s = tick o b s := by
  obtain h | ⟨-, -, h⟩ | ⟨-, -, h⟩ | ⟨-, -, h⟩ | ⟨-, -, h⟩ | ⟨o, b, -, -, h⟩ := pollerEvent_cases e s
  · exact .inl ⟨_, h, rfl, rfl⟩
  · exact .inl ⟨_, h, rfl, rfl⟩
  · exact .inl ⟨_, h, rfl, rfl⟩
  · exact .inl ⟨_, h, rfl, rfl⟩
  · exact .inl ⟨_, h, rfl, rfl⟩
  · exact .inr ⟨o, b, h⟩

theorem pollerEvent_addsAtMostOne (e : Event) (s : State) : s.poller.AddsAtMostOne (pollerEvent e s).poller := by
  obtain ⟨p, h, hemit, hreport⟩ | ⟨o, b, h⟩ := pollerEvent_silent_or_tick e s <;> rw [h]
  · exact .inr ⟨hemit, .inl hreport⟩
  · exact tick_addsAtMostOne o b s

/-- Settles O44: an event that adds a text adds no report but the Sink's, which is no MalformedFrame. -/
theorem eventAddsAtMostOneOfEach : Obligations.EventAddsAtMostOneOfEach := by
  intro s e
  obtain ⟨hemit, hreport⟩ | ⟨hemit, hreport⟩ := pollerEvent_addsAtMostOne e s
  · refine ⟨.inr hemit, hreport.imp_right (⟨_, ·⟩), ?malformed⟩
    rintro ⟨n, hmalformed⟩
    rw [hmalformed] at hreport
    simp at hreport
  · exact ⟨.inl hemit, hreport, fun _ => hemit⟩

end Sys2Proof.Machine
end

section
/-!
Shutdown and Stopped (R126, R128, R129).
-/

namespace Sys2Proof.Machine

/-- Settles O38: the equations of SHUTDOWN; the tick that then ends has a shutdown pending, whatever its outcome. -/
theorem shutdownWaitsForTheTickInFlight : Obligations.ShutdownWaitsForTheTickInFlight := by
  refine fun s => ⟨pollerEvent_shutdown_idle_or_waiting, fun hpoll => ?polling, fun h => pollerEvent_stopped h _⟩
  rw [pollerEvent_shutdown_polling hpoll]
  refine ⟨rfl, fun o b => ?_⟩
  rw [pollerEvent_returns_polling (s.withShutdownPending_pstate.trans hpoll)]
  exact ⟨tick_pstate_of_pending s.withShutdownPending_shutdownPending o b, tick_emitted o b s.withShutdownPending⟩

/-- An event that enters Stopped releases the handle and the timer: a shutdown at once, or a tick that ends there. -/
theorem pollerEvent_releases {s : State} {e : Event} (hs : s.poller.pstate ≠ .stopped)
    (ht : (pollerEvent e s).poller.pstate = .stopped) :
    (pollerEvent e s).poller.sourceHeld = false ∧ (pollerEvent e s).poller.timer = .released := by
  obtain h | ⟨-, -, h⟩ | ⟨-, -, h⟩ | ⟨-, -, h⟩ | ⟨hpoll, -, h⟩ | ⟨o, b, -, -, h⟩ := pollerEvent_cases e s <;>
    rw [h] at ht ⊢
  · exact absurd ht hs
  · cases ht
  · cases ht
  · exact ⟨rfl, rfl⟩
  · exact absurd ht hs
  · exact tick_releases ht

/-- Settles O40: of the steps, only an event changes the Poller's state. -/
theorem enteringStoppedReleasesTheSource : Obligations.EnteringStoppedReleasesTheSource := by
  intro s t hs hstep ht
  obtain ⟨-, rfl⟩ | ⟨r, rest, out, -, -, rfl⟩ | ⟨e, rest, -, rfl⟩ := step_next_cases hstep
  · exact absurd ht hs
  · exact absurd ht hs
  · exact pollerEvent_releases hs ht

theorem step_poller_of_stopped {s t : State} (hs : s.poller.pstate = .stopped) (hstep : step s = .next t) :
    t.poller = s.poller := by
  obtain ⟨-, rfl⟩ | ⟨r, rest, out, -, -, rfl⟩ | ⟨e, rest, -, rfl⟩ := step_next_cases hstep
  · rfl
  · rfl
  · rw [pollerEvent_stopped (s := s.withInputs rest) hs, State.withInputs_poller]

/-- Settles O41, by induction on the number of steps, each of which keeps the record of a stopped Poller. -/
theorem stoppedIsAbsorbing : Obligations.StoppedIsAbsorbing := by
  intro k
  induction k with
  | zero =>
    intro s t hs hrun
    rw [← Host.Outcome.next.inj hrun]
  | succ k ih =>
    intro s t hs hrun
    obtain ⟨s', hstep, hrun'⟩ := runSteps_succ_next hrun
    have hpoller := step_poller_of_stopped hs hstep
    rw [ih s' t (hpoller ▸ hs) hrun', hpoller]

/-- Fires while a tick is in flight only use up inputs (R127), so the event behind them meets the machine unchanged. -/
theorem runSteps_fires_then_event (e : Event) (k : Nat) {s : State} (hpoll : s.poller.pstate = .polling)
    (hin : s.inputs = List.replicate k (.event .fire) ++ [.event e]) :
    runSteps (k + 1) s = .next (pollerEvent e (s.withInputs [])) := by
  induction k generalizing s with
  | zero => rw [runSteps_succ (step_of_event hin), runSteps_zero]
  | succ k ih =>
    rw [List.replicate_succ, List.cons_append] at hin
    rw [runSteps_succ (step_of_event hin), pollerEvent_fire_polling]
    · exact ih hpoll rfl
    · exact hpoll

/-- A shutdown in Polling, some fires, and the return of `receive()`: the tick ends with the shutdown pending, whatever
its outcome. -/
theorem runSteps_shutdown_fires_return (o : ReceiveOutcome) (b : Bool) (k : Nat) {s : State}
    (hpoll : s.poller.pstate = .polling)
    (hin : s.inputs = .event .shutdown :: List.replicate k (.event .fire) ++ [.event (.receiveReturns o b)]) :
    runSteps (k + 2) s = .next (tick o b (s.withInputs []).withShutdownPending) := by
  calc runSteps (k + 2) s
    _ = runSteps (k + 1) (pollerEvent .shutdown (s.withInputs _)) := runSteps_succ (step_of_event hin)
    _ = runSteps (k + 1) (s.withInputs _).withShutdownPending := congrArg _ (pollerEvent_shutdown_polling hpoll)
    _ = .next (pollerEvent (.receiveReturns o b) (s.withInputs []).withShutdownPending) :=
      runSteps_fires_then_event _ k hpoll rfl
    _ = .next (tick o b (s.withInputs []).withShutdownPending) :=
      congrArg _ (pollerEvent_returns_polling (s := (s.withInputs []).withShutdownPending) hpoll o b)

/-- Settles O39: the run ends with the tick, which emits, stops because the shutdown is pending, and so releases. -/
theorem tickInFlightAtShutdownStillEmits : Obligations.TickInFlightAtShutdownStillEmits := by
  intro s raw text b k hpoll htext hin
  have hstop := tick_pstate_of_pending (s.withInputs []).withShutdownPending_shutdownPending (.bytes raw) b
  obtain ⟨hheld, -⟩ := tick_releases hstop
  refine ⟨_, runSteps_shutdown_fires_return (.bytes raw) b k hpoll hin, hstop, ?_, hheld⟩
  simp [htext]

end Sys2Proof.Machine
end

section
/-!
Runs that go on: which runs answer, a tick that does not end (R133), and any number of ticks (R135).
-/

namespace Sys2Proof.Machine

@[simp] theorem pollerEvent_inputs (e : Event) (s : State) : (pollerEvent e s).inputs = s.inputs := by
  obtain ⟨p, h, -, -⟩ | ⟨o, b, h⟩ := pollerEvent_silent_or_tick e s <;> rw [h]
  · exact s.withPoller_inputs p
  · exact tick_inputs o b s

/-- A step adds no input to those still to come. -/
theorem step_inputs_subset {s t : State} (h : step s = .next t) : t.inputs ⊆ s.inputs := by
  obtain ⟨-, rfl⟩ | ⟨r, rest, out, hin, -, rfl⟩ | ⟨e, rest, hin, rfl⟩ := step_next_cases h
  · exact List.Subset.refl _
  · simp [hin]
  · simp [hin]

/-- A step that meets no reserved request answers. -/
theorem exists_step_next {s : State} (h : ∀ x ∈ s.inputs, x.isReserved = false) : ∃ t, step s = .next t := by
  match hin : s.inputs with
  | [] => exact ⟨s, step_of_nil hin⟩
  | .event e :: rest => exact ⟨_, step_of_event hin⟩
  | .request r :: rest =>
    have hop : (r.op == 0b11) = false := h (.request r) (by simp [hin])
    obtain ⟨out, hout⟩ := exists_responseOf_of_op_ne_reserved (beq_eq_false_iff_ne.mp hop)
    exact ⟨_, (step_of_request hin).trans (exec_of_responseOf hout _)⟩

/-- A run that meets no reserved request answers, however many steps it takes. -/
theorem exists_runSteps_next (k : Nat) {s : State} (h : ∀ x ∈ s.inputs, x.isReserved = false) :
    ∃ t, runSteps k s = .next t := by
  induction k generalizing s with
  | zero => exact ⟨s, runSteps_zero s⟩
  | succ k ih =>
    obtain ⟨s', hstep⟩ := exists_step_next h
    rw [runSteps_succ hstep]
    exact ih fun x hx => h x (step_inputs_subset hstep hx)

/-- An event other than the return of `receive()` leaves a Poller in Polling as it is, but for a shutdown that may
become pending (R127, R128). -/
theorem pollerEvent_polling_of_not_return {s : State} {e : Event} (hpoll : s.poller.pstate = .polling)
    (he : (Input.event e).isReceiveReturn = false) :
    ∃ b, (pollerEvent e s).poller = { s.poller with shutdownPending := s.poller.shutdownPending || b } := by
  cases e with
  | start => exact ⟨false, by rw [pollerEvent_start_of_ne_idle (by simp [hpoll]), Bool.or_false]⟩
  | fire => exact ⟨false, by rw [pollerEvent_fire_polling hpoll, Bool.or_false]⟩
  | shutdown => exact ⟨true, by rw [pollerEvent_shutdown_polling hpoll, Bool.or_true]; rfl⟩
  | receiveReturns o b => cases he

theorem step_polling_of_no_return {s t : State} (hpoll : s.poller.pstate = .polling)
    (hin : ∀ x ∈ s.inputs, x.isReceiveReturn = false) (hstep : step s = .next t) :
    ∃ b, t.poller = { s.poller with shutdownPending := s.poller.shutdownPending || b } := by
  obtain ⟨-, rfl⟩ | ⟨r, rest, out, -, -, rfl⟩ | ⟨e, rest, hcons, rfl⟩ := step_next_cases hstep
  · exact ⟨false, by rw [Bool.or_false]⟩
  · exact ⟨false, by rw [Bool.or_false]; rfl⟩
  · exact pollerEvent_polling_of_not_return (s := s.withInputs rest) hpoll (hin _ (by simp [hcons]))

theorem runSteps_polling_of_no_return (k : Nat) {s t : State} (hpoll : s.poller.pstate = .polling)
    (hin : ∀ x ∈ s.inputs, x.isReceiveReturn = false) (hrun : runSteps k s = .next t) :
    ∃ b, t.poller = { s.poller with shutdownPending := s.poller.shutdownPending || b } := by
  induction k generalizing s with
  | zero => exact ⟨false, by rw [← Host.Outcome.next.inj hrun, Bool.or_false]⟩
  | succ k ih =>
    obtain ⟨s', hstep, hrun'⟩ := runSteps_succ_next hrun
    obtain ⟨b, hb⟩ := step_polling_of_no_return hpoll hin hstep
    obtain ⟨c, hc⟩ := ih (by rw [hb, hpoll]) (fun x hx => hin x (step_inputs_subset hstep hx)) hrun'
    exact ⟨b || c, by rw [hc, hb, Bool.or_assoc]⟩

/-- Settles O42: the run answers, since it meets no reserved request, and its record can differ only in the pending
shutdown. -/
theorem pollingLastsUntilReceiveReturns : Obligations.PollingLastsUntilReceiveReturns := by
  intro k s hpoll hin
  obtain ⟨t, hrun⟩ := exists_runSteps_next k fun x hx => (hin x hx).2
  obtain ⟨b, hpoller⟩ := runSteps_polling_of_no_return k hpoll (fun x hx => (hin x hx).1) hrun
  refine ⟨t, hrun, ?_, ?_, ?_, fun hp => ?_⟩
  · rw [hpoller, hpoll]
  · unfold State.observation; rw [hpoller]
  · rw [hpoller]
  · rw [hpoller, hp, Bool.true_or]

/-- The two steps of a tick from Waiting: the fire calls `receive()`, and its return ends the tick (R122). -/
theorem exists_runSteps_eq_tick {s : State} {o : ReceiveOutcome} {b : Bool} {rest : List Input}
    (hwait : s.poller.pstate = .waiting) (hin : s.inputs = tickInputs o b ++ rest) :
    ∃ q : State, q.poller = { s.poller with pstate := .polling } ∧ q.inputs = rest ∧
      ∀ k, runSteps (k + 2) s = runSteps k (tick o b q) := by
  refine ⟨(s.withInputs rest).withPoller { s.poller with pstate := .polling }, rfl, rfl, fun k => ?_⟩
  rw [runSteps_succ (step_of_event hin), pollerEvent_fire_waiting]
  · rw [runSteps_succ (step_of_event rfl), pollerEvent_returns_polling rfl]
    rfl
  · exact hwait

/-- From Stopped, a run that meets no reserved request answers, and leaves the record as it is (R126). -/
theorem exists_runSteps_next_of_stopped (k : Nat) {s : State} (hstop : s.poller.pstate = .stopped)
    (hin : ∀ x ∈ s.inputs, x.isReserved = false) : ∃ t, runSteps k s = .next t ∧ t.poller = s.poller := by
  obtain ⟨t, hrun⟩ := exists_runSteps_next k hin
  exact ⟨t, hrun, stoppedIsAbsorbing k s t hstop hrun⟩

theorem isReserved_of_mem_ticks {ticks : List (ReceiveOutcome × Bool)} {x : Input}
    (h : x ∈ ticks.flatMap fun y => tickInputs y.1 y.2) : x.isReserved = false := by
  obtain ⟨y, -, hx⟩ := List.mem_flatMap.mp h
  obtain rfl | rfl : x = .event .fire ∨ x = .event (.receiveReturns y.1 y.2) := by simpa [tickInputs] using hx
  · rfl
  · rfl

/-- Settles O43, by induction on the ticks: a fatal one stops the Poller for good, any other leaves it waiting, with its
text emitted. -/
theorem emissionsAreTheSuccessfulTicksInOrder : Obligations.EmissionsAreTheSuccessfulTicksInOrder := by
  intro ticks
  induction ticks with
  | nil => exact fun s hwait _ _ => ⟨s, runSteps_zero s, hwait, by simp⟩
  | cons x ticks ih =>
    obtain ⟨o, b⟩ := x
    intro s hwait hp hin
    rw [List.flatMap_cons] at hin
    obtain ⟨q, hq, hqin, hrun⟩ := exists_runSteps_eq_tick hwait hin
    rw [← tick_inputs o b q] at hqin
    by_cases ho : o = .sourceUnavailable
    · obtain ⟨t, ht, hpoller⟩ := exists_runSteps_next_of_stopped (2 * ticks.length) (s := tick o b q)
        (by rw [ho]; rfl) fun x hx => isReserved_of_mem_ticks (hqin ▸ hx)
      refine ⟨t, (hrun _).trans ht, ?_, ?_⟩
      · simp [hpoller, ho, tick_unavailable]
      · simp [hpoller, ho, hq, tickEmission]
    · have hwait' : (tick o b q).poller.pstate = .waiting := by simp [tick_pstate_of_available ho, hq, hp]
      obtain ⟨t, ht, hstate, hemit⟩ := ih (tick o b q) hwait' (by simp [hq, hp]) hqin
      refine ⟨t, (hrun _).trans ht, ?_, ?_⟩
      · simp [hstate, ho]
      · cases htext : tickEmission o <;> simp [hemit, hq, ho, htext]

end Sys2Proof.Machine
end

section
/-!
Construction with a legal configuration (R151), and the first tick after it (R152).
-/

namespace Sys2Proof.Machine

theorem construct_of_wf {c : PollerConfig} (h : c.wf = true) : State.construct c = .next (State.constructed c) := by
  unfold State.construct; rw [h]; rfl

/-- A construction that answers gives the reset column. -/
theorem eq_constructed_of_construct {c : PollerConfig} {s : State} (h : State.construct c = .next s) :
    s = State.constructed c := by
  cases hwf : c.wf with
  | false =>
    rw [construct_of_not_wf hwf] at h
    cases h
  | true =>
    rw [construct_of_wf hwf] at h
    exact (Host.Outcome.next.inj h).symm

/-- The first tick of a Poller in Idle: START brings it to Waiting, and the tick follows (R121, R122). -/
theorem exists_runSteps_start_eq_tick {s : State} {o : ReceiveOutcome} {b : Bool} {rest : List Input}
    (hidle : s.poller.pstate = .idle) (hin : s.inputs = .event .start :: (tickInputs o b ++ rest)) :
    ∃ q : State, q.poller = { s.poller with pstate := .polling, timer := .armed } ∧ q.inputs = rest ∧
      ∀ k, runSteps (k + 3) s = runSteps k (tick o b q) := by
  obtain ⟨q, hq, hqin, hrun⟩ := exists_runSteps_eq_tick (o := o) (b := b) (rest := rest)
    (s := (s.withInputs (tickInputs o b ++ rest)).withPoller { s.poller with pstate := .waiting, timer := .armed })
    rfl rfl
  refine ⟨q, hq, hqin, fun k => ?_⟩
  rw [runSteps_succ (step_of_event hin), pollerEvent_start_idle]
  · exact hrun k
  · exact hidle

/-- Settles O29: a constructed Poller is in Idle, so START, the fire and the return run its first tick, which the
unavailable source makes fatal. -/
theorem failedBindShowsAtTheFirstTick : Obligations.FailedBindShowsAtTheFirstTick := by
  intro c s b hcons
  obtain rfl := eq_constructed_of_construct hcons
  have hidle : (State.constructed c).poller.pstate = .idle := rfl
  obtain ⟨q, hq, -, hrun⟩ := exists_runSteps_start_eq_tick (o := .sourceUnavailable) (b := b) (rest := [])
    (s := (State.constructed c).withInputs (.event .start :: tickInputs .sourceUnavailable b)) hidle rfl
  refine ⟨hidle, _, hrun 0, ?_⟩
  simp [tick_unavailable, hq, Poller.constructed]

end Sys2Proof.Machine
end

section
/-!
Program lines (R73, log 4): each selector's line, the operand bytes of a RENDER line, and the round trips.
-/

namespace Sys2Proof.Machine

/-! ### The operand bytes of a RENDER line -/

/-- A line writes its identifier most significant byte first, a RawFrame least significant byte first (log 4, R42). -/
theorem lineIdentifier_eq_assembleIdentifier (h0 h1 h2 h3 : Byte) :
    lineIdentifier h0 h1 h2 h3 = assembleIdentifier h3 h2 h1 h0 :=
  (assembleIdentifier_eq_append h3 h2 h1 h0).symm

theorem lineIdentifier_extractLsb' (v : Word) :
    lineIdentifier (v.extractLsb' 24 8) (v.extractLsb' 16 8) (v.extractLsb' 8 8) (v.extractLsb' 0 8) = v := by
  rw [lineIdentifier_eq_assembleIdentifier, assembleIdentifier_extractLsb']

theorem lineIdentifierBytes_lineIdentifier (h0 h1 h2 h3 : Byte) :
    lineIdentifierBytes (lineIdentifier h0 h1 h2 h3) = [h0, h1, h2, h3] := by
  rw [lineIdentifier_eq_assembleIdentifier, lineIdentifierBytes_assembleIdentifier]

/-- A frame's own operand bytes are read as that frame. -/
theorem lineFrame_encodeLine_render (f : CanFrame) : lineFrame (encodeLine (.render f)).operands = .ok f :=
  congrArg (fun v => Except.ok (CanFrame.mk v f.payload)) (lineIdentifier_extractLsb' f.identifier)

theorem exists_lineFrame_eq_ok_of_length {operands : List Byte} (h : operands.length = 12) :
    ∃ f, lineFrame operands = .ok f ∧ encodeLine (.render f) = { op := 0b01, operands := operands } := by
  match operands, h with
  | [h0, h1, h2, h3, p0, p1, p2, p3, p4, p5, p6, p7], _ =>
    refine ⟨_, rfl, ?_⟩
    rw [encodeLine, lineIdentifierBytes_lineIdentifier]
    rfl

theorem lineFrame_off_twelve {operands : List Byte} (h : operands.length ≠ 12) :
    lineFrame operands = .error (.frameOperandLength operands.length) := by
  unfold lineFrame
  split
  · exact absurd rfl h
  · rfl

/-! ### One equation per selector -/

theorem decodeLine_decode (operands : List Byte) :
    decodeLine { op := 0b00, operands := operands } = .ok (.decode operands) := rfl

theorem decodeLine_render_of_ok {operands : List Byte} {f : CanFrame} (h : lineFrame operands = .ok f) :
    decodeLine { op := 0b01, operands := operands } = .ok (.render f) := by
  simp [decodeLine, lineRequest, h, decode]

theorem decodeLine_render_off_twelve {operands : List Byte} (h : operands.length ≠ 12) :
    decodeLine { op := 0b01, operands := operands } = .error (.frameOperandLength operands.length) := by
  simp [decodeLine, lineRequest, lineFrame_off_twelve h]

theorem decodeLine_decodeRender (operands : List Byte) :
    decodeLine { op := 0b10, operands := operands } = .ok (.decodeRender operands) := rfl

theorem decodeLine_reserved (operands : List Byte) :
    decodeLine { op := 0b11, operands := operands } = .ok .reserved := rfl

theorem selector_cases (op : BitVec 2) : op = 0b00 ∨ op = 0b01 ∨ op = 0b10 ∨ op = 0b11 := by
  revert op; decide

/-- All the line reader can do: read an instruction, whose own line this is unless it is the reserved one, or turn a
RENDER line away because of its number of operand bytes. -/
theorem decodeLine_cases (l : Line) :
    (∃ i, decodeLine l = .ok i ∧ (i ≠ .reserved → encodeLine i = l) ∧ (l.op = 0b01 → l.operands.length = 12)) ∨
    (l.op = 0b01 ∧ l.operands.length ≠ 12 ∧ decodeLine l = .error (.frameOperandLength l.operands.length)) := by
  obtain ⟨op, operands⟩ := l
  obtain rfl | rfl | rfl | rfl := selector_cases op
  · exact .inl ⟨_, decodeLine_decode operands, fun _ => rfl, nofun⟩
  · by_cases hlen : operands.length = 12
    · obtain ⟨f, hf, hline⟩ := exists_lineFrame_eq_ok_of_length hlen
      exact .inl ⟨_, decodeLine_render_of_ok hf, fun _ => hline, fun _ => hlen⟩
    · exact .inr ⟨rfl, hlen, decodeLine_render_off_twelve hlen⟩
  · exact .inl ⟨_, decodeLine_decodeRender operands, fun _ => rfl, nofun⟩
  · exact .inl ⟨_, decodeLine_reserved operands, (absurd rfl ·), nofun⟩

/-- Settles O2: each selector's line reads as its row, and a RENDER line's bytes read as the frame they were made of. -/
theorem lineDecodesWhatItEncodes : Obligations.LineDecodesWhatItEncodes := by
  intro i
  cases i with
  | decode raw => exact decodeLine_decode raw
  | render f => exact decodeLine_render_of_ok (lineFrame_encodeLine_render f)
  | decodeRender raw => exact decodeLine_decodeRender raw
  | reserved => exact decodeLine_reserved []

/-- Settles O3: the instruction read is the only one the reader can give, and the line is its own. -/
theorem lineIsItsInstructionsLine : Obligations.LineIsItsInstructionsLine := by
  intro l i hi hne
  obtain ⟨j, hj, hline, -⟩ | ⟨-, -, herror⟩ := decodeLine_cases l
  · obtain rfl := Except.ok.inj (hi.symm.trans hj)
    exact hline hne
  · exact nomatch hi.symm.trans herror

/-- Settles O4: a line that is read has 12 operand bytes where it is a RENDER line, so the two cases of the reader
exclude each other. -/
theorem lineRefusedExactlyOffTwelveRenderBytes : Obligations.LineRefusedExactlyOffTwelveRenderBytes := by
  intro l e
  obtain ⟨i, hi, -, hlen⟩ | ⟨hop, hlen, herror⟩ := decodeLine_cases l
  · constructor
    · exact fun he => nomatch hi.symm.trans he
    · exact fun ⟨hop, hoff, _⟩ => absurd (hlen hop) hoff
  · rw [herror]
    constructor
    · exact fun he => ⟨hop, hlen, (Except.error.inj he).symm⟩
    · exact fun ⟨_, _, he⟩ => congrArg _ he.symm

end Sys2Proof.Machine
end

section
/-!
The invariant (R30, R111, R129): each operation on the record keeps it, and so does every step.
-/

namespace Sys2Proof.Machine

/-! ### Answers -/

theorem frameResponse_decodeOp_wf (raw : List Byte) : (frameResponse (decodeOp raw)).wf = true := by
  obtain ⟨-, f, hf⟩ | ⟨hoff, hf⟩ := decodeOp_cases raw
  · rw [hf]; rfl
  · rw [hf]; exact bne_iff_ne.mpr hoff

theorem textResponse_displayString_wf (f : CanFrame) : (textResponse (.ok (displayString f))).wf = true :=
  renderedTextObeysTheGrammar f

theorem textResponse_decodeRenderOp_wf (raw : List Byte) : (textResponse (decodeRenderOp raw)).wf = true := by
  obtain ⟨-, f, -, hf⟩ | ⟨hoff, hf⟩ := decodeRenderOp_cases raw
  · rw [hf]; exact textResponse_displayString_wf f
  · rw [hf]; exact bne_iff_ne.mpr hoff

/-- Every answer of the block is one R27 allows. -/
theorem responseOf_wf {i : Instr} {out : Response} (h : responseOf i = some out) : out.wf = true := by
  cases i with
  | decode raw => cases h; exact frameResponse_decodeOp_wf raw
  | render f => cases h; exact textResponse_displayString_wf f
  | decodeRender raw => cases h; exact textResponse_decodeRenderOp_wf raw
  | reserved => cases h

namespace Inv

variable {s : State} (h : Inv s)
include h

theorem withInputs (rest : List Input) : Inv (s.withInputs rest) := { h with }

theorem respond {out : Response} (hout : out.wf = true) : Inv (s.respond out) :=
  { h with responses_wf := List.forall_mem_append.mpr ⟨h.responses_wf, List.forall_mem_singleton.mpr hout⟩ }

/-! ### The pieces of a tick -/

theorem not_fatal (hrun : s.poller.pstate ≠ .stopped) : s.poller.fatal = none :=
  not_imp_comm.mp h.fatal_stops hrun

theorem emit (hidle : s.poller.pstate ≠ .idle) {text : DisplayString} (htext : isDisplayString text = true) :
    Inv (s.withPoller (s.poller.emit text)) :=
  { h with
    idle_silent := (absurd · hidle)
    emitted_wf := List.forall_mem_append.mpr ⟨h.emitted_wf, List.forall_mem_singleton.mpr htext⟩ }

theorem report (hidle : s.poller.pstate ≠ .idle) {r : Report} (hr : r.wf s.config.surfaceSinkFailure = true) :
    Inv (s.withPoller (s.poller.report r)) :=
  { h with
    idle_silent := (absurd · hidle)
    reports_wf := List.forall_mem_append.mpr ⟨h.reports_wf, List.forall_mem_singleton.mpr hr⟩ }

/-- A Sink failure is reported only where it is surfaced, so its report is allowed (R130). -/
theorem handOff (hidle : s.poller.pstate ≠ .idle) {text : DisplayString} (htext : isDisplayString text = true)
    (sinkFails : Bool) :
    Inv (s.withPoller (s.poller.handOff s.config.surfaceSinkFailure sinkFails text)) := by
  by_cases hquiet : s.config.surfaceSinkFailure = false ∨ sinkFails = false
  · rw [Poller.handOff_quiet _ hquiet]
    exact h.emit hidle htext
  · obtain ⟨hsurface, hfails⟩ : s.config.surfaceSinkFailure = true ∧ sinkFails = true := by simpa using hquiet
    rw [hsurface, hfails, Poller.handOff_surfaced]
    exact (h.emit hidle htext).report hidle hsurface

/-- Stopping releases the handle and the timer, and whatever is pending or fatal may stand in Stopped (R128, R129). -/
theorem stop : Inv (s.withPoller s.poller.stop) :=
  { h with
    source_held := by simp
    timer_follows := rfl
    shutdown_waits := fun _ => .inr rfl
    fatal_stops := fun _ => rfl
    idle_silent := nofun }

/-- A tick that completes with no shutdown pending returns to Waiting, the handle held and the timer armed (R123). -/
theorem completeTick (hpoll : s.poller.pstate = .polling) : Inv (s.withPoller s.poller.completeTick) := by
  cases hp : s.poller.shutdownPending with
  | true => rw [Poller.completeTick_of_pending hp]; exact h.stop
  | false =>
    rw [Poller.completeTick_of_not_pending hp]
    have hrun : s.poller.pstate ≠ .stopped := by simp [hpoll]
    exact { h with
      source_held := iff_of_true (h.source_held.mpr hrun) nofun
      timer_follows := h.timer_follows.trans (by rw [hpoll]; rfl)
      shutdown_waits := fun hp' => absurd (hp.symm.trans hp') nofun
      fatal_stops := (absurd (h.not_fatal hrun) ·)
      idle_silent := nofun }

/-- A fatal error stops the Poller, and its report, if the open choice makes one, is allowed (R125). -/
theorem fail (also : Bool) (draws : Nat) : Inv { s with poller := s.poller.fail also, freeDraws := draws } :=
  { h.stop with
    fatal_stops := fun _ => rfl
    idle_silent := nofun
    reports_wf := by
      cases also
      · exact h.reports_wf
      · exact List.forall_mem_append.mpr ⟨h.reports_wf, List.forall_mem_singleton.mpr rfl⟩ }

theorem tick (hpoll : s.poller.pstate = .polling) (o : ReceiveOutcome) (b : Bool) : Inv (tick o b s) := by
  have hidle : s.poller.pstate ≠ .idle := by simp [hpoll]
  obtain ⟨_, f, -, -, -, ht⟩ | ⟨_, -, hoff, ht⟩ | ⟨-, ht⟩ | ⟨-, ht⟩ := tick_cases o b s <;> rw [ht]
  · have hhand := h.handOff hidle (renderedTextObeysTheGrammar f) b
    exact hhand.completeTick ((Poller.handOff_pstate _ _ _ _).trans hpoll)
  · have hreport := h.report hidle (r := .malformedFrame _) (bne_iff_ne.mpr hoff)
    exact hreport.completeTick hpoll
  · have hreport := h.report hidle (r := .receiveError .source) rfl
    exact hreport.completeTick hpoll
  · exact h.fail _ _

/-! ### The events that end no tick -/

theorem start (hidle : s.poller.pstate = .idle) :
    Inv (s.withPoller { s.poller with pstate := .waiting, timer := .armed }) :=
  have hrun : s.poller.pstate ≠ .stopped := by simp [hidle]
  { h with
    source_held := iff_of_true (h.source_held.mpr hrun) nofun
    timer_follows := rfl
    shutdown_waits := fun hp => by simpa [hidle] using h.shutdown_waits hp
    fatal_stops := (absurd (h.not_fatal hrun) ·)
    idle_silent := nofun }

theorem fire (hwait : s.poller.pstate = .waiting) : Inv (s.withPoller { s.poller with pstate := .polling }) :=
  have hrun : s.poller.pstate ≠ .stopped := by simp [hwait]
  { h with
    source_held := iff_of_true (h.source_held.mpr hrun) nofun
    timer_follows := h.timer_follows.trans (by rw [hwait]; rfl)
    shutdown_waits := fun _ => .inl rfl
    fatal_stops := (absurd (h.not_fatal hrun) ·)
    idle_silent := nofun }

theorem withShutdownPending (hpoll : s.poller.pstate = .polling) : Inv s.withShutdownPending :=
  { h with shutdown_waits := fun _ => .inl hpoll }

theorem pollerEvent (e : Event) : Inv (pollerEvent e s) := by
  obtain ht | ⟨hidle, -, ht⟩ | ⟨hwait, -, ht⟩ | ⟨-, -, ht⟩ | ⟨hpoll, -, ht⟩ | ⟨o, b, hpoll, -, ht⟩ :=
    pollerEvent_cases e s <;> rw [ht]
  · exact h
  · exact h.start hidle
  · exact h.fire hwait
  · exact h.stop
  · exact h.withShutdownPending hpoll
  · exact h.tick hpoll o b

end Inv

/-- Settles O48: a request is answered in an allowed form, and each transition of the Poller keeps the invariant. -/
theorem everyStepKeepsTheInvariant : Obligations.EveryStepKeepsTheInvariant := by
  intro s t h hstep
  obtain ⟨-, rfl⟩ | ⟨r, rest, out, -, hout, rfl⟩ | ⟨e, rest, -, rfl⟩ := step_next_cases hstep
  · exact h
  · exact (h.withInputs rest).respond (responseOf_wf hout)
  · exact (h.withInputs rest).pollerEvent e

end Sys2Proof.Machine
end

section
/-!
Construction (R151): the reset column, and the invariant in it.
-/

namespace Sys2Proof.Machine

/-- The reset column meets the invariant when the configuration is legal (R151). -/
theorem inv_constructed {c : PollerConfig} (h : c.wf = true) : Inv (State.constructed c) where
  config_legal := h
  source_held := iff_of_true rfl nofun
  timer_follows := rfl
  shutdown_waits := nofun
  fatal_stops := (absurd rfl ·)
  idle_silent := fun _ => ⟨rfl, rfl⟩
  emitted_wf := nofun
  reports_wf := nofun
  responses_wf := nofun

/-- Only a legal configuration is constructed (R131). -/
theorem wf_of_construct {c : PollerConfig} {s : State} (h : State.construct c = .next s) : c.wf = true := by
  by_contra hwf
  rw [construct_of_not_wf (Bool.eq_false_of_not_eq_true hwf)] at h
  cases h

/-- Settles O47: a construction that answers had a legal configuration, as reset has. -/
theorem invariantHoldsAfterConstruction : Obligations.InvariantHoldsAfterConstruction := by
  refine ⟨fun c s h => ?_, inv_constructed rfl⟩
  rw [eq_constructed_of_construct h]
  exact inv_constructed (wf_of_construct h)

/-- Settles O27: a positive period makes the configuration legal, and construction then sets the reset column. -/
theorem constructionSetsTheResetColumn : Obligations.ConstructionSetsTheResetColumn := by
  refine ⟨fun c hperiod => ?_, construct_of_wf rfl, rfl, rfl⟩
  exact ⟨_, construct_of_wf (decide_eq_true hperiod), rfl, rfl, rfl, rfl, rfl, rfl, rfl, rfl⟩

end Sys2Proof.Machine
end

section
/-!
What one step does with its oldest input, what it reads of a request (R26), and the codes of errors (R111).
-/

namespace Sys2Proof.Machine

/-- The selector and the one operand its operation uses choose the instruction (R26, R70). -/
theorem decode_congr {r r' : Request} (hop : r.op = r'.op)
    (hraw : (r.op = 0b00 ∨ r.op = 0b10) → r.raw = r'.raw) (hframe : r.op = 0b01 → r.frame = r'.frame) :
    decode r = decode r' := by
  unfold decode
  rw [← hop]
  split
  next hsel => rw [hraw (.inl hsel)]
  next hsel => rw [hframe hsel]
  next hsel => rw [hraw (.inr hsel)]
  next => rfl

/-- Settles O5: both requests decode to the same instruction, which is all a step reads of them. -/
theorem unusedRequestFieldsHaveNoEffect : Obligations.UnusedRequestFieldsHaveNoEffect := by
  intro s rest r r' hop hraw hframe
  rw [step_of_request (State.withInputs_inputs s _), step_of_request (State.withInputs_inputs s _),
    decode_congr hop hraw hframe]
  rfl

/-- Settles O7: `step` on a request, read off its equation. -/
theorem stepRunsTheDecodedRequest : Obligations.StepRunsTheDecodedRequest := by
  rintro s r rest _ hin rfl
  exact step_of_request hin

/-- Settles O8: the equations of `step` on an event and on no input. -/
theorem stepRunsTheEventOrWaits : Obligations.StepRunsTheEventOrWaits :=
  ⟨fun _ _ _ => step_of_event, fun _ => step_of_nil⟩

/-- Settles O26: the rows of the two tables of codes. -/
theorem errorCodesAreTheSpecs : Obligations.ErrorCodesAreTheSpecs :=
  ⟨rfl, rfl, fun _ => ⟨rfl, rfl, rfl, rfl⟩⟩

end Sys2Proof.Machine
end

section
/-!
Events with no row in the table of R120, and the frame of every event.
-/

namespace Sys2Proof.Machine

theorem pollerEvent_fire_idle {s : State} (h : s.poller.pstate = .idle) : pollerEvent .fire s = s := by
  simp [pollerEvent, onFire, h]

theorem pollerEvent_returns_of_ne_polling {s : State} (h : s.poller.pstate ≠ .polling) (o : ReceiveOutcome) (b : Bool) :
    pollerEvent (.receiveReturns o b) s = s := by
  cases hp : s.poller.pstate with
  | polling => exact absurd hp h
  | idle | waiting | stopped => simp [pollerEvent, onReceiveReturns, hp]

/-- Settles O31: the equations of a fire in Idle and of a return outside Polling. -/
theorem eventsWithNoRowChangeNothing : Obligations.EventsWithNoRowChangeNothing :=
  fun _ o b => ⟨pollerEvent_fire_idle, fun h => pollerEvent_returns_of_ne_polling h o b⟩

@[simp] theorem tick_config (o : ReceiveOutcome) (b : Bool) (s : State) : (tick o b s).config = s.config := by
  obtain ⟨_, _, -, -, -, h⟩ | ⟨_, -, -, h⟩ | ⟨-, h⟩ | ⟨-, h⟩ := tick_cases o b s <;> rw [h] <;> rfl

@[simp] theorem tick_responses (o : ReceiveOutcome) (b : Bool) (s : State) : (tick o b s).responses = s.responses := by
  obtain ⟨_, _, -, -, -, h⟩ | ⟨_, -, -, h⟩ | ⟨-, h⟩ | ⟨-, h⟩ := tick_cases o b s <;> rw [h] <;> rfl

@[simp] theorem pollerEvent_config (e : Event) (s : State) : (pollerEvent e s).config = s.config := by
  obtain ⟨p, h, -, -⟩ | ⟨o, b, h⟩ := pollerEvent_silent_or_tick e s <;> rw [h]
  · exact s.withPoller_config p
  · exact tick_config o b s

@[simp] theorem pollerEvent_responses (e : Event) (s : State) : (pollerEvent e s).responses = s.responses := by
  obtain ⟨p, h, -, -⟩ | ⟨o, b, h⟩ := pollerEvent_silent_or_tick e s <;> rw [h]
  · exact s.withPoller_responses p
  · exact tick_responses o b s

/-- Settles O45: the frame of an event, field by field. -/
theorem eventsOnlyMoveThePoller : Obligations.EventsOnlyMoveThePoller :=
  fun s e => ⟨pollerEvent_config e s, pollerEvent_inputs e s, pollerEvent_responses e s⟩

end Sys2Proof.Machine
end

section
/-!
What is observed of a run only grows (R140, D16).
-/

namespace Sys2Proof.Machine

/-- What has been observed of `s`, with its responses, stands in `t` as it was. -/
structure State.Extends (t s : State) : Prop where
  emitted : s.poller.emitted <+: t.poller.emitted
  reports : s.poller.reports <+: t.poller.reports
  responses : s.responses <+: t.responses
  fatal : s.poller.fatal ≠ none → t.poller.fatal = s.poller.fatal

theorem State.Extends.refl (s : State) : s.Extends s :=
  ⟨List.prefix_rfl, List.prefix_rfl, List.prefix_rfl, fun _ => rfl⟩

theorem State.Extends.trans {s t u : State} (htu : u.Extends t) (hst : t.Extends s) : u.Extends s where
  emitted := hst.emitted.trans htu.emitted
  reports := hst.reports.trans htu.reports
  responses := hst.responses.trans htu.responses
  fatal := fun hs =>
    have ht := hst.fatal hs
    (htu.fatal (ht ▸ hs)).trans ht

theorem Poller.AddsAtMostOne.isPrefix {p q : Poller} (h : p.AddsAtMostOne q) :
    p.emitted <+: q.emitted ∧ p.reports <+: q.reports := by
  obtain ⟨⟨text, hemit⟩, hreport | hreport⟩ | ⟨hemit, hreport | ⟨r, hreport⟩⟩ := h <;> simp [hemit, hreport]

theorem tick_fatal (o : ReceiveOutcome) (b : Bool) (s : State) :
    (tick o b s).poller.fatal = s.poller.fatal ∨ (tick o b s).poller.fatal = some .sourceUnavailable := by
  obtain ⟨_, _, -, -, -, h⟩ | ⟨_, -, -, h⟩ | ⟨-, h⟩ | ⟨-, h⟩ := tick_cases o b s <;> simp [h]

/-- An event leaves `fatal` alone or sets the one error there is (R125). -/
theorem pollerEvent_fatal (e : Event) (s : State) :
    (pollerEvent e s).poller.fatal = s.poller.fatal ∨
    (pollerEvent e s).poller.fatal = some .sourceUnavailable := by
  obtain h | ⟨-, -, h⟩ | ⟨-, -, h⟩ | ⟨-, -, h⟩ | ⟨-, -, h⟩ | ⟨o, b, -, -, h⟩ := pollerEvent_cases e s <;> rw [h]
  · exact .inl rfl
  · exact .inl rfl
  · exact .inl rfl
  · exact .inl rfl
  · exact .inl rfl
  · exact tick_fatal o b s

theorem fatal_eq_of_ne_none {f : Option FatalError} (h : f ≠ none) : f = some .sourceUnavailable := by
  obtain ⟨⟨⟩, rfl⟩ := Option.ne_none_iff_exists'.mp h
  rfl

theorem pollerEvent_extends (e : Event) (s : State) : (pollerEvent e s).Extends s := by
  obtain ⟨hemit, hreport⟩ := (pollerEvent_addsAtMostOne e s).isPrefix
  refine ⟨hemit, hreport, by simp, fun hfatal => ?_⟩
  obtain h | h := pollerEvent_fatal e s
  · exact h
  · rw [h, fatal_eq_of_ne_none hfatal]

theorem respond_extends (s : State) (out : Response) : (s.respond out).Extends s :=
  { State.Extends.refl s with responses := List.prefix_append _ _ }

theorem withInputs_extends (s : State) (rest : List Input) : (s.withInputs rest).Extends s :=
  { State.Extends.refl s with }

theorem step_extends {s t : State} (h : step s = .next t) : t.Extends s := by
  obtain ⟨-, rfl⟩ | ⟨r, rest, out, -, -, rfl⟩ | ⟨e, rest, -, rfl⟩ := step_next_cases h
  · exact .refl _
  · exact (respond_extends _ out).trans (withInputs_extends s rest)
  · exact (pollerEvent_extends e _).trans (withInputs_extends s rest)

theorem runSteps_extends (k : Nat) {s t : State} (h : runSteps k s = .next t) : t.Extends s := by
  induction k generalizing s with
  | zero => rw [← Host.Outcome.next.inj h]; exact .refl s
  | succ k ih =>
    obtain ⟨s', hstep, hrun⟩ := runSteps_succ_next h
    exact (ih hrun).trans (step_extends hstep)

/-- Settles O46, by induction on the number of steps, each of which extends what is observed. -/
theorem observationOnlyGrows : Obligations.ObservationOnlyGrows := by
  intro k s t hrun
  obtain ⟨hemit, hreport, hresponse, hfatal⟩ := runSteps_extends k hrun
  exact ⟨hemit, hreport, hresponse, hfatal⟩

end Sys2Proof.Machine
end
